-- ==== Sys2Proof/Word.lean ====
section
/-! DEFINITION. The word types of the block: 00_scope.md R10 (a byte is an unsigned integer of 8 bits) and the register
widths of 10_state.md R22 to R36. -/

namespace Sys2Proof

/-- A byte, the unit of every wire field and buffer (R10). -/
abbrev Byte := BitVec 8

/-- The width of REQ_PLEN, WIRE_LEN and IDX (R24, R36, R44). -/
abbrev Word16 := BitVec 16

/-- The width of TIMEOUT and TIMER (R25, R43), and of a whole-register host access. -/
abbrev Word32 := BitVec 32

end Sys2Proof
end

