-- ==== Sys2Proof/Config.lean ====
section
/-! DEFINITION. What is fixed for the block: the constants of 00_scope.md R6, the capacities of R7, and the free values
(values the spec leaves unspecified, 60_exceptions.md R252). -/

namespace Sys2Proof.Config

/-- START and STOP, the delimiter 0x7E (R6; 90_conflicts.md C8). -/
def flagByte : Byte := 0x7E

/-- ESC, the escape byte 0x7D (R6). -/
def escByte : Byte := 0x7D

/-- CTL11 (R6). -/
def ctl11Byte : Byte := 0x11

/-- CTL13 (R6). -/
def ctl13Byte : Byte := 0x13

/-- STUFF_XOR (R6). -/
def stuffXor : Byte := 0x20

/-- MAX_PAYLOAD (R6): a payload has at most 255 bytes before stuffing. -/
abbrev maxPayload : Nat := 255

/-- WIRE_MAX (R7; 92_eei_decisions.md D31): the longest wire frame. -/
abbrev wireMax : Nat := 519

/-- The capacity of TXPAY and of RXPAY (10_state.md R38, R39). -/
abbrev payloadMax : Nat := 255

/-- A FREE VALUE: what an unspecified byte holds, the n-th one taken in the run. It has no body, so no proof can know it.
DESIGN CHOICE, log entry 3: the response registers after a failed operation (R252). -/
opaque freeByte : Nat → Byte

end Sys2Proof.Config
end

