-- ==== Sys2Proof/Syntax.lean ====
section
/-! DEFINITION. The instructions: one constructor for each row of spec/opcode_table.json. 00_scope.md R5 says that the
operations stand where an ISA's instructions would; the wire byte classes are 30_encoding.md R103 to R112 and the frame
format is R91. -/

namespace Sys2Proof

inductive Instr where
  /-- ENCODE, host operation 0x01 (42_frame_codec.md R165). -/
  | encode
  /-- DECODE, host operation 0x02 (R177). -/
  | decode
  /-- XFER, host operation 0x03 (43_transport_session.md R226). -/
  | xfer
  /-- CKSUM_GEN, internal unit (40_checksum.md R132). -/
  | cksumGen (addr cmd : Byte) (payload : List Byte)
  /-- CKSUM_VFY, internal unit on the inner bytes `u` (R133). -/
  | cksumVfy (u : List Byte)
  /-- STUFF, internal unit (41_stuffing.md R141). -/
  | stuff (inner : List Byte)
  /-- UNSTUFF, internal unit (R145). -/
  | unstuff (body : List Byte)
  /-- FLAG, wire byte 0x7E with no ESC pending (30_encoding.md R103). -/
  | flag
  /-- ESC, wire byte 0x7D with no ESC pending (R104). -/
  | esc
  /-- CTL11, wire byte 0x11 with no ESC pending (R105). -/
  | ctl11
  /-- CTL13, wire byte 0x13 with no ESC pending (R106). -/
  | ctl13
  /-- LITERAL, any other wire byte with no ESC pending (R107). -/
  | literal (v : Byte)
  /-- E_5E, wire byte 0x5E after a pending ESC (R108). -/
  | e5E
  /-- E_5D, wire byte 0x5D after a pending ESC (R109). -/
  | e5D
  /-- E_31, wire byte 0x31 after a pending ESC (R110). -/
  | e31
  /-- E_33, wire byte 0x33 after a pending ESC (R111). -/
  | e33
  /-- E_INVALID, any other wire byte after a pending ESC (R112). -/
  | eInvalid (e : Byte)
  /-- FRAME, a whole frame: its fields before stuffing (R91). LEN is the number of payload bytes. -/
  | frame (addr cmd : Byte) (payload : List Byte) (chk : Byte)
deriving DecidableEq, Repr

end Sys2Proof
end

