-- ==== Sys2Proof/WellFormed.lean ====
section
/-! DEFINITION. Which instructions are well formed: the operand conditions the spec states for each. -/

namespace Sys2Proof

open Config

/-- Not one of the four values that have a WIREBYTE row of their own (30_encoding.md R107). -/
def Byte.isLiteral (v : Byte) : Bool :=
  v != flagByte && v != escByte && v != ctl11Byte && v != ctl13Byte

/-- Not one of the four values that have an ESCAPED row of their own (R108 to R112; the table: E_INVALID "matches when no
more specific ESCAPED row does"). -/
def Byte.isBadEscape (e : Byte) : Bool :=
  e != 0x5E && e != 0x5D && e != 0x31 && e != 0x33

/-- The operand conditions of R132 (at most 255 payload bytes), R133 (at least 4 inner bytes), R145 (no 0x7E in a body),
R107, R112 and R91 (the payload's length fits the LEN byte). -/
def Instr.wellFormed : Instr → Bool
  | .encode => true
  | .decode => true
  | .xfer => true
  | .cksumGen _ _ payload => decide (payload.length ≤ maxPayload)
  | .cksumVfy u => decide (4 ≤ u.length)
  | .stuff _ => true
  | .unstuff body => !body.contains flagByte
  | .flag => true
  | .esc => true
  | .ctl11 => true
  | .ctl13 => true
  | .literal v => Byte.isLiteral v
  | .e5E => true
  | .e5D => true
  | .e31 => true
  | .e33 => true
  | .eInvalid e => Byte.isBadEscape e
  | .frame _ _ payload _ => decide (payload.length ≤ maxPayload)

end Sys2Proof
end

