-- ==== Sys2Proof/Decode.lean ====
section
/-! DEFINITION. The instruction decoder, total on any bytes and refusing by name, and after it the encoder. The block has
three places where bits select a row of spec/opcode_table.json, and the frame format is a fourth: the value written to
CTRL.OP (30_encoding.md R115), a received byte with ESC_PEND = 0 (R103 to R107), a received byte with ESC_PEND = 1
(R108 to R112), and a whole frame before stuffing (R91). The internal units have no encoding (R116). -/

namespace Sys2Proof

open Config

/-- Where the bits come from: the formats HOSTOP, WIREBYTE, ESCAPED and FRAME of the opcode table. -/
inductive Channel where
  /-- CTRL.OP (R115). -/
  | ctrl
  /-- A received byte with no ESC pending. -/
  | wire
  /-- A received byte after a pending ESC. -/
  | escaped
  /-- A whole frame, before stuffing (R91). -/
  | frame
deriving DecidableEq, Repr

/-- Why bits are no instruction. -/
inductive DecodeReject where
  /-- CTRL.OP 0x00 or 0x04 to 0xFF (R118 a). -/
  | reservedOp
  /-- Not the number of bytes the format has. -/
  | wrongLength
  /-- A frame that does not begin and end with 0x7E (R91). -/
  | noDelimiter
  /-- A frame whose LEN is not the number of its payload bytes (R91, R93). -/
  | lengthField
deriving DecidableEq, Repr

/-- CTRL.OP (R115, R118). -/
def decodeOp (v : Byte) : Except DecodeReject Instr :=
  if v = 0x01 then .ok .encode
  else if v = 0x02 then .ok .decode
  else if v = 0x03 then .ok .xfer
  else .error .reservedOp

/-- The class of a byte with no ESC pending (R103 to R107). -/
def decodeWire (b : Byte) : Instr :=
  if b = flagByte then .flag
  else if b = escByte then .esc
  else if b = ctl11Byte then .ctl11
  else if b = ctl13Byte then .ctl13
  else .literal b

/-- The class of a byte after a pending ESC (R108 to R112). -/
def decodeEscaped (b : Byte) : Instr :=
  if b = 0x5E then .e5E
  else if b = 0x5D then .e5D
  else if b = 0x31 then .e31
  else if b = 0x33 then .e33
  else .eInvalid b

/-- The class of a received byte: its value, and whether the byte before it was an unconsumed ESC (30_encoding.md
section 3). -/
def decodeReceived (escPend : Bool) (b : Byte) : Instr :=
  if escPend then decodeEscaped b else decodeWire b

/-- A frame before stuffing, field by field (R91). -/
def decodeLayout : List Byte → Except DecodeReject Instr
  | start :: addr :: cmd :: len :: rest =>
    if start ≠ flagByte then .error .noDelimiter
    else if rest.length ≠ len.toNat + 2 then .error .lengthField
    else
      match rest.drop len.toNat with
      | [chk, stop] =>
        if stop = flagByte then .ok (.frame addr cmd (rest.take len.toNat) chk) else .error .noDelimiter
      | _ => .error .lengthField
  | _ => .error .wrongLength

/-- The decoder: the instruction that `bytes` are on channel `ch`. -/
def decode (ch : Channel) (bytes : List Byte) : Except DecodeReject Instr :=
  match ch, bytes with
  | .ctrl, [v] => decodeOp v
  | .wire, [b] => .ok (decodeReceived false b)
  | .escaped, [b] => .ok (decodeReceived true b)
  | .frame, bs => decodeLayout bs
  | _, _ => .error .wrongLength

/-- The channel on which an instruction is encoded; an internal unit has none (R116). -/
def channelOf : Instr → Option Channel
  | .encode => some .ctrl
  | .decode => some .ctrl
  | .xfer => some .ctrl
  | .cksumGen _ _ _ => none
  | .cksumVfy _ => none
  | .stuff _ => none
  | .unstuff _ => none
  | .flag => some .wire
  | .esc => some .wire
  | .ctl11 => some .wire
  | .ctl13 => some .wire
  | .literal _ => some .wire
  | .e5E => some .escaped
  | .e5D => some .escaped
  | .e31 => some .escaped
  | .e33 => some .escaped
  | .eInvalid _ => some .escaped
  | .frame _ _ _ _ => some .frame

/-- A frame before stuffing: START, ADDR, CMD, LEN, PAYLOAD, CHK, STOP (R91). -/
def layoutOf (addr cmd : Byte) (payload : List Byte) (chk : Byte) : List Byte :=
  flagByte :: addr :: cmd :: BitVec.ofNat 8 payload.length :: (payload ++ [chk, flagByte])

/-- The encoder: the bytes of an instruction on its channel, none for an internal unit. -/
def encode : Instr → List Byte
  | .encode => [0x01]
  | .decode => [0x02]
  | .xfer => [0x03]
  | .cksumGen _ _ _ => []
  | .cksumVfy _ => []
  | .stuff _ => []
  | .unstuff _ => []
  | .flag => [0x7E]
  | .esc => [0x7D]
  | .ctl11 => [0x11]
  | .ctl13 => [0x13]
  | .literal v => [v]
  | .e5E => [0x5E]
  | .e5D => [0x5D]
  | .e31 => [0x31]
  | .e33 => [0x33]
  | .eInvalid e => [e]
  | .frame addr cmd payload chk => layoutOf addr cmd payload chk

/-- The bytes of a table word, the first byte in bits 7 to 0 (the table's numbering). -/
def tableBytes (nbits w : Nat) : List Byte :=
  (List.range (nbits / 8)).map fun k => BitVec.ofNat 8 (w >>> (8 * k))

/-- The channel a table word is read on. DESIGN CHOICE, log entry 11: a table word does not say where it comes from; the
codes of HOSTOP and ESCAPED rows are read as those rows, any other byte as a WIREBYTE row, and more than one byte as a
frame. -/
def tableChannel : List Byte → Channel
  | [b] =>
    if b = 0x01 ∨ b = 0x02 ∨ b = 0x03 then .ctrl
    else if b = 0x5E ∨ b = 0x5D ∨ b = 0x31 ∨ b = 0x33 then .escaped
    else .wire
  | _ => .frame

/-- The instruction the decoder reads from a word of spec/opcode_table.json. -/
def decodeTableWord (nbits w : Nat) : Option Instr :=
  match decode (tableChannel (tableBytes nbits w)) (tableBytes nbits w) with
  | .ok i => some i
  | .error _ => none

end Sys2Proof
end

