-- ==== Sys2Proof/Machine/State.lean ====
section
/-! DEFINITION. The state of the block as plain data (10_state.md R20 lists it), why a step can stop, and the state after
reset (R48; 70_reset_and_hazards.md R280). -/

namespace Sys2Proof.Machine

/-- STATUS.PHASE (10_state.md R32; 43_transport_session.md R191). -/
inductive Phase where
  /-- 0: no operation of the transport session. -/
  | idle
  /-- 1: XFER is transmitting; left in the step in which it is entered. -/
  | tx
  /-- 2: the receive phase of XFER. -/
  | rx
deriving DecidableEq, Repr

/-- The outcome of an operation, the block's only form of exception (60_exceptions.md R240). -/
inductive Code where
  | ok
  | payloadTooLarge
  | framingError
  | unstuffingError
  | checksumMismatch
  | lengthMismatch
  | timeout
  | addressMismatch
  | commandMismatch
deriving DecidableEq, Repr

/-- The four failures of decoding a frame (42_frame_codec.md R170). -/
inductive DecodeErr where
  | framing
  | unstuffing
  | checksum
  | length
deriving DecidableEq, Repr

/-- The three byte buffers (20_memory.md R60). -/
inductive Buf where
  | txpay
  | rxpay
  | wire
deriving DecidableEq, Repr

/-- A byte buffer: the bytes that hold a value, by rising index. An index not listed holds no value (10_state.md R47). -/
abbrev Memory := List Host.Cell

/-- A decoded frame (00_scope.md R13). -/
structure Frame where
  addr : Byte
  cmd : Byte
  payload : List Byte
  isResponse : Bool
deriving DecidableEq, Repr

/-- The transient scan state of the codec (10_state.md R44), and beside it two fields of the model's own (log entry 7). -/
structure Scan where
  /-- IDX: the index of the next byte the scan reads. -/
  idx : Word16
  /-- ESC_PEND: the last byte read was ESC, and the byte it escapes has not been read. -/
  escPend : Bool
  /-- SUM: the running sum modulo 256 of the inner bytes. -/
  sum : Byte
  /-- The MODEL's own: the inner bytes so far, `u` of 41_stuffing.md R145. -/
  inner : List Byte
  /-- The MODEL's own: the scan has met an invalid escape and reads no further. -/
  bad : Bool
deriving DecidableEq, Repr

/-- The scan before it has read a byte; every element 0 (R44). -/
def Scan.zero : Scan := { idx := 0, escPend := false, sum := 0, inner := [], bad := false }

/-- The MODEL's own (log entry 8): what an internal unit run on its own hands back. -/
inductive UnitOut where
  /-- No unit has run. -/
  | nothing
  /-- CKSUM_GEN: the checksum byte. -/
  | byte (b : Byte)
  /-- STUFF and UNSTUFF: a byte sequence. -/
  | bytes (s : List Byte)
  /-- CKSUM_VFY: the checksum is right. -/
  | pass
  /-- CKSUM_VFY and UNSTUFF: a named failure. -/
  | fail (e : DecodeErr)
deriving DecidableEq, Repr

/-- What an agent other than the framer can do (00_scope.md R8; 20_memory.md R66, R70; 70_reset_and_hazards.md R280). -/
inductive Input where
  /-- The host writes a whole register by number (register 0x00 is CTRL and starts an operation). -/
  | writeReg (num : Byte) (value : Word32)
  /-- The host writes one byte of a buffer. -/
  | writeBuf (buf : Buf) (index : Nat) (value : Byte)
  /-- The host reads a whole register. -/
  | readReg (num : Byte)
  /-- The host reads one byte of a buffer. -/
  | readBuf (buf : Buf) (index : Nat)
  /-- RxByte(b): the peer delivers one byte. -/
  | rxByte (b : Byte)
  /-- One `read` of the collaborator: a run of RxByte events (R70). -/
  | rx (bytes : List Byte)
  /-- Tick: one unit of the timeout has passed. -/
  | tick
  /-- Reset is applied. -/
  | reset
deriving DecidableEq, Repr

/-- The state of the block (10_state.md R20), then the model's own fields. Words the host reads are computed from the
fields (Flags.lean); log entry 16. -/
structure State where
  /-- STATUS.BUSY (R32). -/
  busy : Bool
  /-- STATUS.PHASE (R32). -/
  phase : Phase
  /-- STATUS.RESYNCED (R32). -/
  resynced : Bool
  /-- STATUS.RSP_VALID (R32). -/
  rspValid : Bool
  /-- CFG.ESC_LEGACY (R33). -/
  escLegacy : Bool
  /-- RESULT.CODE (R34). -/
  result : Code
  /-- FIRST_ERR.CODE, absent for the code 0 "when none has" (R35). -/
  firstErr : Option DecodeErr
  /-- REQ_ADDR (R22). -/
  reqAddr : Byte
  /-- REQ_CMD (R23). -/
  reqCmd : Byte
  /-- REQ_PLEN (R24). -/
  reqPlen : Word16
  /-- TIMEOUT (R25). -/
  timeout : Word32
  /-- WIRE_LEN (R36). -/
  wireLen : Word16
  /-- RSP_ADDR (R26). -/
  rspAddr : Byte
  /-- RSP_CMD (R27). -/
  rspCmd : Byte
  /-- RSP_LEN (R28). -/
  rspLen : Byte
  /-- RSP_FLAGS.IS_RESPONSE (R29). -/
  rspIsResponse : Bool
  /-- TXPAY (R38). -/
  txpay : Memory
  /-- RXPAY (R39). -/
  rxpay : Memory
  /-- WIRE (R40). -/
  wire : Memory
  /-- RXBUF, the oldest byte first (R41). -/
  rxbuf : List Byte
  /-- TXOUT, every byte sent since reset, in order (R42). -/
  txout : List Byte
  /-- TIMER (R43). -/
  timer : Word32
  /-- IDX, ESC_PEND, SUM (R44). -/
  scan : Scan
  /-- The MODEL's own (log entry 1): what the environment will do, the next thing first. -/
  inputs : List Input
  /-- The MODEL's own (log entry 12): what the last host read returned. -/
  hostData : Word32
  /-- The MODEL's own (log entry 8): what the last unit run on its own handed back. -/
  unitOut : UnitOut
  /-- The MODEL's own (log entry 3): how many free values have been taken. -/
  freeCount : Nat
deriving DecidableEq, Repr

/-- Why the machine stops with a fault. -/
inductive Fault where
  /-- A host access names an index outside the range that 20_memory.md R60 gives the buffer. Raised by host buffer reads and
  writes, before any other test. Safe: the model stops. DESIGN CHOICE, log entry 15. -/
  | noSuchByte (buf : Buf) (index : Nat)
deriving DecidableEq, Repr

/-- Why the model gives an access no meaning; each is a refusal the spec itself asks for, and each is safe: the model
stops. -/
inductive Refusal where
  /-- An instruction that has no meaning yet. No arm of exec answers so. -/
  | notModelled (mnemonic : String)
  /-- A write of a reserved CTRL.OP (30_encoding.md R118 a). Raised by a host write of CTRL. -/
  | reservedOp (op : Byte)
  /-- A write of CTRL while STATUS.BUSY = 1 (R118 b). Raised by ENCODE, DECODE, XFER and a host write of CTRL. -/
  | ctrlWhileBusy
  /-- A write of an operand register, CFG, WIRE_LEN or a buffer while STATUS.BUSY = 1 (R118 c). Raised by host writes. -/
  | writeWhileBusy
  /-- A write of WIRE_LEN above WIRE_MAX (R119). Raised by a host write. -/
  | wireLenTooLarge
  /-- A byte of a buffer that holds no value is needed (10_state.md R47). Raised by ENCODE, DECODE, XFER and host reads. -/
  | unwrittenByte (buf : Buf)
  /-- A host read of a response register or RXPAY while STATUS.RSP_VALID = 0 (R47). -/
  | rspNotValid
deriving DecidableEq, Repr

/-- The state right after reset (R48, R280). The response registers are unspecified there and hold 0 in the model:
DESIGN CHOICE, log entry 2. No byte of a buffer holds a value. -/
def State.reset : State where
  busy := false
  phase := .idle
  resynced := false
  rspValid := false
  escLegacy := true
  result := .ok
  firstErr := none
  reqAddr := 0
  reqCmd := 0
  reqPlen := 0
  timeout := 0
  wireLen := 0
  rspAddr := 0
  rspCmd := 0
  rspLen := 0
  rspIsResponse := false
  txpay := []
  rxpay := []
  wire := []
  rxbuf := []
  txout := []
  timer := 0
  scan := Scan.zero
  inputs := []
  hostData := 0
  unitOut := .nothing
  freeCount := 0

end Sys2Proof.Machine
end

