-- ==== Sys2Proof/Machine/Checksum.lean ====
section
/-! DEFINITION. The checksum generator and verifier (40_checksum.md). -/

namespace Sys2Proof.Machine

/-- Σ s, an unbounded natural number (00_scope.md R10). -/
def byteSum : List Byte → Nat
  | [] => 0
  | b :: rest => b.toNat + byteSum rest

/-- cks(s) = 0xFF - ((Σ s) mod 256) (R130). -/
def cks (s : List Byte) : Byte := BitVec.ofNat 8 (0xFF - byteSum s % 256)

/-- The bytes the checksum of a frame is taken over: address, command, length, payload (R132). -/
def summed (addr cmd : Byte) (payload : List Byte) : List Byte :=
  addr :: cmd :: BitVec.ofNat 8 payload.length :: payload

/-- CKSUM_GEN as a function (R132). -/
def cksumGen (addr cmd : Byte) (payload : List Byte) : Byte := cks (summed addr cmd payload)

/-- CKSUM_VFY as a function: the last inner byte is `cks` of all before it (R133). -/
def cksumVfy (u : List Byte) : Bool :=
  match u.getLast? with
  | some chk => cks u.dropLast == chk
  | none => false

/-- CKSUM_GEN run on its own: the transient SUM is written, the result handed back (R132; log entry 8). -/
def execCksumGen (addr cmd : Byte) (payload : List Byte) (s : State) : Host.Outcome State Fault Refusal :=
  .next { s with
    scan := { s.scan with sum := BitVec.ofNat 8 (byteSum (summed addr cmd payload)) }
    unitOut := .byte (cksumGen addr cmd payload) }

/-- CKSUM_VFY run on its own: pass, or the failure ChecksumMismatch (R133; log entry 8). -/
def execCksumVfy (u : List Byte) (s : State) : Host.Outcome State Fault Refusal :=
  .next { s with unitOut := if cksumVfy u then .pass else .fail .checksum }

end Sys2Proof.Machine
end

