-- ==== Sys2Proof/Machine/Flags.lean ====
section
/-! DEFINITION. The status words as the host reads them (10_state.md R29, R32 to R35) and the outcome codes
(60_exceptions.md R240). The block has no condition codes (R45). -/

namespace Sys2Proof.Machine

/-- The number of an outcome (R240). -/
def Code.num : Code → Byte
  | .ok => 0
  | .payloadTooLarge => 1
  | .framingError => 2
  | .unstuffingError => 3
  | .checksumMismatch => 4
  | .lengthMismatch => 5
  | .timeout => 6
  | .addressMismatch => 7
  | .commandMismatch => 8

/-- The outcome that a decoding failure is (R240). -/
def DecodeErr.code : DecodeErr → Code
  | .framing => .framingError
  | .unstuffing => .unstuffingError
  | .checksum => .checksumMismatch
  | .length => .lengthMismatch

/-- The two bits of STATUS.PHASE (R32). -/
def Phase.bits : Phase → Byte
  | .idle => 0
  | .tx => 1
  | .rx => 2

/-- A flag as bit 0 of a byte. -/
def flagBit (b : Bool) : Byte := if b then 1 else 0

/-- STATUS: BUSY in bit 0, PHASE in bits 2:1, RESYNCED in bit 3, RSP_VALID in bit 4, bits 7:5 read as 0 (R32). -/
def statusWord (s : State) : Byte :=
  flagBit s.busy ||| (s.phase.bits <<< 1) ||| (flagBit s.resynced <<< 3) ||| (flagBit s.rspValid <<< 4)

/-- CFG: ESC_LEGACY in bit 0, bits 7:1 read as 0 (R33). -/
def cfgWord (s : State) : Byte := flagBit s.escLegacy

/-- RESULT: CODE in bits 3:0, bits 7:4 read as 0 (R34). -/
def resultWord (s : State) : Byte := s.result.num

/-- FIRST_ERR: CODE in bits 3:0, 0 when no candidate has failed (R35). -/
def firstErrWord (s : State) : Byte :=
  match s.firstErr with
  | none => 0
  | some e => e.code.num

/-- RSP_FLAGS: IS_RESPONSE in bit 0, bits 7:1 read as 0 (R29). -/
def rspFlagsWord (s : State) : Byte := flagBit s.rspIsResponse

end Sys2Proof.Machine
end

