-- ==== Sys2Proof/Machine/Ops.lean ====
section
/-! DEFINITION. The named operations on buffers, streams and registers that every operation shares, and the one way an
operation ends, `finish` (60_exceptions.md R250), which stands where a trap entry would. There is no return from it
(R258). -/

namespace Sys2Proof.Machine

open Config

/-! ## Byte buffers -/

/-- BufRead (00_scope.md R11): the byte at an index, none where nothing has written it (10_state.md R47). -/
def Memory.read : Memory → Nat → Option Byte
  | [], _ => none
  | (a, v) :: rest, i => if a = i then some v else Memory.read rest i

/-- BufWrite (R11): keeps the indices rising. -/
def Memory.write : Memory → Nat → Byte → Memory
  | [], i, v => [(i, v)]
  | (a, w) :: rest, i, v =>
    if i < a then (i, v) :: (a, w) :: rest
    else if i = a then (i, v) :: rest
    else (a, w) :: Memory.write rest i v

/-- The buffer that holds `bytes` from index `i` on and nothing else. -/
def Memory.ofListFrom : Nat → List Byte → Memory
  | _, [] => []
  | i, b :: rest => (i, b) :: Memory.ofListFrom (i + 1) rest

/-- The buffer that holds `bytes` from index 0 on and no other byte (DEDUCED, log entry 5: the bytes above are
unspecified, 10_state.md R39, R40). -/
def Memory.ofList (bytes : List Byte) : Memory := Memory.ofListFrom 0 bytes

/-- The bytes at indices `i` to `i + n - 1`, none where one of them holds no value. -/
def Memory.readFrom (m : Memory) : Nat → Nat → Option (List Byte)
  | _, 0 => some []
  | i, n + 1 =>
    match m.read i, Memory.readFrom m (i + 1) n with
    | some b, some bs => some (b :: bs)
    | _, _ => none

/-- Every index is above `lo` and the indices rise strictly. -/
def Memory.risingFrom : Nat → Memory → Bool
  | _, [] => true
  | lo, (a, _) :: rest => decide (lo ≤ a) && Memory.risingFrom (a + 1) rest

/-- The canonical form: the indices rise strictly (an unlisted index holds no value, so no entry can equal it). -/
def Memory.wf (m : Memory) : Bool := Memory.risingFrom 0 m

/-- Every index is below `n`. -/
def Memory.below (n : Nat) (m : Memory) : Bool := m.all fun c => decide (c.1 < n)

/-- The number of bytes a buffer has (20_memory.md R60). -/
def Buf.capacity : Buf → Nat
  | .txpay => payloadMax
  | .rxpay => payloadMax
  | .wire => wireMax

/-! ## The transmit stream, the receive buffer and the timer -/

/-- TxWrite(w): the bytes are appended to TXOUT in one step (20_memory.md R71). -/
def State.txWrite (s : State) (w : List Byte) : State := { s with txout := s.txout ++ w }

/-- `TIMER <- TIMEOUT` (43_transport_session.md R196). -/
def State.loadTimer (s : State) : State := { s with timer := s.timeout }

/-- `if TIMER > 0: TIMER <- TIMER - 1` (R218). -/
def State.countDown (s : State) : State :=
  { s with timer := if s.timer = 0 then 0 else s.timer - 1 }

/-! ## Starting and ending an operation -/

/-- `STATUS.BUSY <- 1` (42_frame_codec.md R165, R177; 43_transport_session.md R192). -/
def State.startOp (s : State) : State := { s with busy := true }

/-- finish(code), the one way an operation ends (60_exceptions.md R250). -/
def State.finish (s : State) (c : Code) : State :=
  { s with result := c, phase := .idle, busy := false }

/-- STATUS.RSP_VALID <- 0: the response registers and RXPAY are unspecified from here on (R252). The registers take free
values and RXPAY holds no value; log entry 3. -/
def State.invalidateRsp (s : State) : State :=
  { s with
    rspValid := false
    rspAddr := freeByte s.freeCount
    rspCmd := freeByte (s.freeCount + 1)
    rspLen := freeByte (s.freeCount + 2)
    rspIsResponse := (freeByte (s.freeCount + 3)).getLsbD 0
    rxpay := []
    freeCount := s.freeCount + 4 }

/-- store_frame(f) (42_frame_codec.md R177): the response registers and RXPAY hold the frame. -/
def State.storeFrame (s : State) (f : Frame) : State :=
  { s with
    rspAddr := f.addr
    rspCmd := f.cmd
    rspLen := BitVec.ofNat 8 f.payload.length
    rspIsResponse := true
    rxpay := Memory.ofList f.payload
    rspValid := true }

/-- WIRE and WIRE_LEN hold the frame `w` (R165). -/
def State.storeWire (s : State) (w : List Byte) : State :=
  { s with wire := Memory.ofList w, wireLen := BitVec.ofNat 16 w.length }

/-- The transient scan state is dead: each element 0 (10_state.md R44; log entry 6). -/
def State.clearScan (s : State) : State := { s with scan := Scan.zero }

/-- An operation that fails and leaves no response: RSP_VALID <- 0, then finish (R251, R252). -/
def State.fail (s : State) (c : Code) : State := s.invalidateRsp.finish c

end Sys2Proof.Machine
end

