-- ==== Sys2Proof/Machine/Operands.lean ====
section
/-! DEFINITION. The operand forms: no operation names a register, each reads fixed registers and buffers (10_state.md R21;
30_encoding.md R115). -/

namespace Sys2Proof.Machine

open Config

/-- The request's payload is longer than a frame can carry: REQ_PLEN > 255 (42_frame_codec.md R161). -/
def State.plenTooLarge (s : State) : Bool := decide (maxPayload < s.reqPlen.toNat)

/-- The request's payload, TXPAY[0 .. REQ_PLEN-1]; none where a byte of it is unwritten (10_state.md R38, R47). -/
def State.reqPayload (s : State) : Option (List Byte) := s.txpay.readFrom 0 s.reqPlen.toNat

/-- The raw bytes of DECODE, WIRE[0 .. WIRE_LEN-1]; none where one of them is unwritten (R40, R47). -/
def State.rawWire (s : State) : Option (List Byte) := s.wire.readFrom 0 s.wireLen.toNat

end Sys2Proof.Machine
end

