-- ==== Sys2Proof/Machine/Stuffing.lean ====
section
/-! DEFINITION. The byte stuffer and unstuffer (41_stuffing.md) and the escape set (30_encoding.md R100). -/

namespace Sys2Proof.Machine

open Config

/-- ESC_SET: 0x7E and 0x7D always, 0x11 and 0x13 when CFG.ESC_LEGACY = 1 (R100). -/
def inEscSet (legacy : Bool) (b : Byte) : Bool :=
  b == flagByte || b == escByte || (legacy && (b == ctl11Byte || b == ctl13Byte))

/-- stuff1: one byte as one or two wire bytes (R140). -/
def stuff1 (legacy : Bool) (b : Byte) : List Byte :=
  if inEscSet legacy b then [escByte, b ^^^ stuffXor] else [b]

/-- STUFF as a function: a forward scan with no state between bytes (R141). -/
def stuff (legacy : Bool) : List Byte → List Byte
  | [] => []
  | b :: rest => stuff1 legacy b ++ stuff legacy rest

/-! ## The unstuffing scan: one step for each wire byte class -/

/-- The inner byte `v` is read: it is appended and summed and no escape is pending (30_encoding.md R105 to R111; R145). -/
def Scan.accept (v : Byte) (sc : Scan) : Scan :=
  if sc.bad then sc
  else { sc with idx := sc.idx + 1, escPend := false, sum := sc.sum + v, inner := sc.inner ++ [v] }

/-- ESC is read: it contributes no inner byte and sets ESC_PEND (R104). -/
def Scan.escape (sc : Scan) : Scan :=
  if sc.bad then sc else { sc with idx := sc.idx + 1, escPend := true }

/-- An invalid escaped byte is read: the scan fails and reads no further (R112; R145). The byte after ESC has been read, so
ESC_PEND is 0 (10_state.md R44; log entry 7). -/
def Scan.reject (sc : Scan) : Scan :=
  if sc.bad then sc else { sc with idx := sc.idx + 1, escPend := false, bad := true }

/-- An escaped byte is read: it stands for `v` where `v` is in ESC_SET and is invalid where it is not (R101, R108 to
R112). -/
def Scan.escaped (legacy : Bool) (v : Byte) (sc : Scan) : Scan :=
  if inEscSet legacy v then sc.accept v else sc.reject

/-- One turn of the loop of UNSTUFF (R145). -/
def Scan.readByte (legacy : Bool) (sc : Scan) (b : Byte) : Scan :=
  if sc.escPend then sc.escaped legacy (b ^^^ stuffXor)
  else if b = escByte then sc.escape
  else sc.accept b

/-- The scan of a whole body from its start (R145). -/
def scanBody (legacy : Bool) (body : List Byte) : Scan := body.foldl (Scan.readByte legacy) Scan.zero

/-- What a scan returns at the end of the body: a failure where it met an invalid escape or an escape is left pending
(R145, R146). -/
def Scan.result (sc : Scan) : Except DecodeErr (List Byte) :=
  if sc.bad || sc.escPend then .error .unstuffing else .ok sc.inner

/-- UNSTUFF as a function (R145, R146). -/
def unstuff (legacy : Bool) (body : List Byte) : Except DecodeErr (List Byte) := (scanBody legacy body).result

/-- What a unit that can fail hands back. -/
def unitResult : Except DecodeErr (List Byte) → UnitOut
  | .ok u => .bytes u
  | .error e => .fail e

/-- STUFF run on its own: it writes no flag (R141; log entry 8). -/
def execStuff (inner : List Byte) (s : State) : Host.Outcome State Fault Refusal :=
  .next { s with unitOut := .bytes (stuff s.escLegacy inner) }

/-- UNSTUFF run on its own: the transient ESC_PEND and IDX are written, SUM is not (R145; log entry 8). -/
def execUnstuff (body : List Byte) (s : State) : Host.Outcome State Fault Refusal :=
  .next { s with
    scan := { scanBody s.escLegacy body with sum := s.scan.sum }
    unitOut := unitResult (unstuff s.escLegacy body) }

end Sys2Proof.Machine
end

