-- ==== Sys2Proof/Machine/Codec.lean ====
section
/-! DEFINITION. The frame codec: the host operations ENCODE and DECODE and the functions they compute (42_frame_codec.md).
Both are atomic (20_memory.md R78). -/

namespace Sys2Proof.Machine

open Config

/-- The inner bytes of a frame: address, command, length, payload, checksum (30_encoding.md R91). -/
def innerBytes (addr cmd : Byte) (payload : List Byte) (chk : Byte) : List Byte :=
  summed addr cmd payload ++ [chk]

/-- A wire frame: the inner bytes stuffed, between two delimiters that are not (R92). -/
def wireOf (legacy : Bool) (addr cmd : Byte) (payload : List Byte) (chk : Byte) : List Byte :=
  flagByte :: (stuff legacy (innerBytes addr cmd payload chk) ++ [flagByte])

/-- encode(addr, cmd, payload) (R160); it fails with PayloadTooLarge alone (R161). -/
def encodeFrame (legacy : Bool) (addr cmd : Byte) (payload : List Byte) : Except Code (List Byte) :=
  if maxPayload < payload.length then .error .payloadTooLarge
  else .ok (wireOf legacy addr cmd payload (cksumGen addr cmd payload))

/-- Stages 3, 4 and 5 of decode, on the unstuffed inner bytes: at least four (R173), the checksum (R174), the length
(R175). -/
def parseInner (u : List Byte) : Except DecodeErr Frame :=
  match u with
  | addr :: cmd :: len :: rest =>
    if rest = [] then .error .framing
    else if !cksumVfy u then .error .checksum
    else if len.toNat ≠ rest.dropLast.length then .error .length
    else .ok { addr := addr, cmd := cmd, payload := rest.dropLast, isResponse := true }
  | _ => .error .framing

/-- decode(raw): the five stages in order, the first that fails reported (R170 to R175). -/
def decodeFrame (legacy : Bool) (raw : List Byte) : Except DecodeErr Frame :=
  match raw with
  | first :: rest =>
    if first ≠ flagByte ∨ rest.getLast? ≠ some flagByte then .error .framing
    else if rest.dropLast.contains flagByte then .error .framing
    else
      match unstuff legacy rest.dropLast with
      | .error e => .error e
      | .ok u => parseInner u
  | [] => .error .framing

/-- ENCODE (R165). A write of CTRL while BUSY is refused (30_encoding.md R118); REQ_PLEN is tested before any payload byte
is read (R161). -/
def execEncode (s : State) : Host.Outcome State Fault Refusal :=
  if s.busy then .refused .ctrlWhileBusy
  else if s.plenTooLarge then .next (s.startOp.finish .payloadTooLarge)
  else
    match s.reqPayload with
    | none => .refused (.unwrittenByte .txpay)
    | some payload =>
      match encodeFrame s.escLegacy s.reqAddr s.reqCmd payload with
      | .error c => .next (s.startOp.finish c)
      | .ok w => .next ((s.startOp.storeWire w).clearScan.finish .ok)

/-- DECODE (R177). A failure invalidates the previous response. -/
def execDecode (s : State) : Host.Outcome State Fault Refusal :=
  if s.busy then .refused .ctrlWhileBusy
  else
    match s.rawWire with
    | none => .refused (.unwrittenByte .wire)
    | some raw =>
      match decodeFrame s.escLegacy raw with
      | .error e => .next (s.startOp.clearScan.fail e.code)
      | .ok f => .next ((s.startOp.clearScan.storeFrame f).finish .ok)

end Sys2Proof.Machine
end

