-- ==== Sys2Proof/Machine/Session.lean ====
section
/-! DEFINITION. The transport session: the host operation XFER, the frame synchronizer, the timer and the correlation
(43_transport_session.md). -/

namespace Sys2Proof.Machine

open Config

/-- The bytes before the first 0x7E and the bytes after it; none where there is none. -/
def splitAtFlag : List Byte → Option (List Byte × List Byte)
  | [] => none
  | b :: rest =>
    if b = flagByte then some ([], rest)
    else
      match splitAtFlag rest with
      | some (body, after) => some (b :: body, after)
      | none => none

/-- What one step of the synchronizer does (R200). -/
inductive SyncStep where
  /-- Conditions 1 to 3: a step was taken and the choice is made again. -/
  | again (s : State)
  /-- The operation has ended. -/
  | done (s : State)
  /-- Condition 5: quiescent. -/
  | waiting (s : State)
deriving DecidableEq, Repr

/-- Correlation of a decoded frame with the request, the address first (R211). -/
def State.correlate (s : State) (f : Frame) : State :=
  if f.addr ≠ s.reqAddr then s.finish .addressMismatch
  else if f.cmd ≠ s.reqCmd then s.finish .commandMismatch
  else s.finish .ok

/-- A complete candidate, `7E body 7E` at the front of RXBUF and `after` behind it, is decoded (R210). A frame is consumed
whole and correlated; a failure keeps the closing delimiter, and is absorbed once (R212) and surfaced the second time
(R213). -/
def State.takeCandidate (s : State) (body after : List Byte) : SyncStep :=
  match decodeFrame s.escLegacy (flagByte :: (body ++ [flagByte])) with
  | .ok f => .done (({ s with rxbuf := after }.storeFrame f).correlate f)
  | .error e =>
    if s.resynced then .done ({ s with rxbuf := flagByte :: after }.fail e.code)
    else .again { s with rxbuf := flagByte :: after, resynced := true, firstErr := some e }

/-- Conditions 4 and 5 of R200: no byte to discard and no complete candidate (R208, R219). -/
def State.stall (s : State) : SyncStep :=
  if s.timer = 0 then .done (s.fail .timeout) else .waiting s

/-- One choice of the synchronizer, the conditions in their order (R200). -/
def State.syncStep (s : State) : SyncStep :=
  match s.rxbuf with
  | [] => s.stall
  | b :: rest =>
    if b ≠ flagByte then .again { s with rxbuf := rest }
    else
      match rest with
      | [] => s.stall
      | c :: _ =>
        if c = flagByte then .again { s with rxbuf := rest }
        else
          match splitAtFlag rest with
          | some (body, after) => s.takeCandidate body after
          | none => s.stall

/-- The choice repeated, at most `fuel` times. -/
def State.settleFor : Nat → State → State
  | 0, s => s
  | fuel + 1, s =>
    match s.syncStep with
    | .again s' => State.settleFor fuel s'
    | .done s' => s'
    | .waiting s' => s'

/-- The framer runs to quiescence or to the end of the operation (00_scope.md R9; R225 `settle`). Every turn that goes on
removes a byte of RXBUF, so its length and one more turn are enough. -/
def State.settle (s : State) : State := State.settleFor (s.rxbuf.length + 1) s

/-- RXBUF holds an unfinished candidate with at least one body byte (R208). -/
def bodyStarted : List Byte → Bool
  | b :: _ :: _ => b == flagByte
  | _ => false

/-- The transient scan state is live only for the unfinished candidate of the receive phase (10_state.md R44; log
entry 6). -/
def State.retireScan (s : State) : State :=
  if s.phase = .rx ∧ bodyStarted s.rxbuf = true then s else s.clearScan

/-- The scan of the unfinished candidate that RXBUF holds, from its start. -/
def State.openScan (s : State) : State := { s with scan := scanBody s.escLegacy s.rxbuf.tail }

/-- The start of XFER: BUSY, PHASE = TX, RESYNCED and FIRST_ERR cleared; RXBUF is not emptied (R192). -/
def State.startXfer (s : State) : State :=
  { s.startOp with phase := .tx, resynced := false, firstErr := none }

/-- The transmit step: one TxWrite, then TIMER loaded and PHASE = RX (R195, R196). -/
def State.transmit (s : State) (w : List Byte) : State :=
  { (s.txWrite w).loadTimer with phase := .rx }

/-- XFER (R226): start, encode, transmit, and the receive phase up to quiescence (R9, R225). -/
def execXfer (s : State) : Host.Outcome State Fault Refusal :=
  if s.busy then .refused .ctrlWhileBusy
  else if s.plenTooLarge then .next (s.startXfer.fail .payloadTooLarge)
  else
    match s.reqPayload with
    | none => .refused (.unwrittenByte .txpay)
    | some payload =>
      match encodeFrame s.escLegacy s.reqAddr s.reqCmd payload with
      | .error c => .next (s.startXfer.fail c)
      | .ok w => .next ((s.startXfer.transmit w).settle.openScan.retireScan)

/-- A byte is received: it is appended to RXBUF in every phase (20_memory.md R72), the scan of an unfinished candidate
takes the effect of its class, and in the receive phase the framer runs to quiescence (R216). -/
def State.receive (s : State) (b : Byte) (effect : Scan → Scan) : State :=
  let s1 := { s with
    rxbuf := s.rxbuf ++ [b]
    scan := if s.rxbuf.head? = some flagByte then effect s.scan else s.scan }
  if s.phase = .rx then s1.settle.retireScan else s1.retireScan

/-- Tick: the timer counts down in the receive phase and the framer runs to quiescence; in another phase nothing changes
(R218). -/
def State.tick (s : State) : State :=
  if s.phase = .rx then s.countDown.settle.retireScan else s

end Sys2Proof.Machine
end

