-- ==== Sys2Proof/Machine/Wire.lean ====
section
/-! DEFINITION. The meanings of the wire byte classes (30_encoding.md R103 to R112) and of a whole frame (R91): a byte of
that class is received. Log entries 9 and 10. -/

namespace Sys2Proof.Machine

open Config

/-- FLAG: a delimiter, never data; it opens or closes a candidate (R103). A new scan starts behind it. -/
def execFlag (s : State) : Host.Outcome State Fault Refusal :=
  .next (s.receive flagByte fun _ => Scan.zero)

/-- ESC: contributes no inner byte, sets ESC_PEND (R104). -/
def execEsc (s : State) : Host.Outcome State Fault Refusal :=
  .next (s.receive escByte Scan.escape)

/-- CTL11: the inner byte 0x11, at either value of CFG.ESC_LEGACY (R105). -/
def execCtl11 (s : State) : Host.Outcome State Fault Refusal :=
  .next (s.receive ctl11Byte (Scan.accept ctl11Byte))

/-- CTL13: the inner byte 0x13, at either value of CFG.ESC_LEGACY (R106). -/
def execCtl13 (s : State) : Host.Outcome State Fault Refusal :=
  .next (s.receive ctl13Byte (Scan.accept ctl13Byte))

/-- LITERAL: the inner byte of that value (R107). -/
def execLiteral (v : Byte) (s : State) : Host.Outcome State Fault Refusal :=
  .next (s.receive v (Scan.accept v))

/-- E_5E: the inner byte 0x7E (R108). -/
def execE5E (s : State) : Host.Outcome State Fault Refusal :=
  .next (s.receive 0x5E (Scan.accept flagByte))

/-- E_5D: the inner byte 0x7D (R109). -/
def execE5D (s : State) : Host.Outcome State Fault Refusal :=
  .next (s.receive 0x5D (Scan.accept escByte))

/-- E_31: the inner byte 0x11 when CFG.ESC_LEGACY = 1, invalid when 0 (R110). -/
def execE31 (s : State) : Host.Outcome State Fault Refusal :=
  .next (s.receive 0x31 (if s.escLegacy then Scan.accept ctl11Byte else Scan.reject))

/-- E_33: the inner byte 0x13 when CFG.ESC_LEGACY = 1, invalid when 0 (R111). -/
def execE33 (s : State) : Host.Outcome State Fault Refusal :=
  .next (s.receive 0x33 (if s.escLegacy then Scan.accept ctl13Byte else Scan.reject))

/-- E_INVALID: the frame fails with UnstuffingError (R112). -/
def execEInvalid (e : Byte) (s : State) : Host.Outcome State Fault Refusal :=
  .next (s.receive e Scan.reject)

/-- The effect of a received byte on the scan of the unfinished candidate: a delimiter starts a new scan, any other byte
is one turn of the loop of UNSTUFF. -/
def lineEffect (legacy : Bool) (b : Byte) (sc : Scan) : Scan :=
  if !sc.escPend && b == flagByte then Scan.zero else sc.readByte legacy b

/-- RxByte(b) (20_memory.md R72; 43_transport_session.md R216). -/
def State.rxByte (s : State) (b : Byte) : State := s.receive b (lineEffect s.escLegacy b)

/-- A run of RxByte events (R70). -/
def State.rxBytes (s : State) (bytes : List Byte) : State := bytes.foldl State.rxByte s

/-- FRAME: the peer sends this frame. Its wire bytes, stuffed at the current CFG.ESC_LEGACY (30_encoding.md R92), are
received in order. -/
def execFrame (addr cmd : Byte) (payload : List Byte) (chk : Byte) (s : State) : Host.Outcome State Fault Refusal :=
  .next (s.rxBytes (wireOf s.escLegacy addr cmd payload chk))

/-- The layout before stuffing of the wire bytes of one frame, none where they are no frame's wire bytes. -/
def layoutOnWire (legacy : Bool) (bytes : List Byte) : Option (List Byte) :=
  match bytes with
  | _ :: rest =>
    match unstuff legacy rest.dropLast with
    | .ok u => some (flagByte :: (u ++ [flagByte]))
    | .error _ => none
  | [] => none

/-- The wire bytes of a FRAME instruction. -/
def frameWire (legacy : Bool) : Instr → List Byte
  | .frame addr cmd payload chk => wireOf legacy addr cmd payload chk
  | _ => []

/-- The FRAME instruction whose wire bytes `bytes` are, where they are exactly one frame's. -/
def decodeDelivery (legacy : Bool) (bytes : List Byte) : Option Instr :=
  match layoutOnWire legacy bytes with
  | none => none
  | some layout =>
    match decode .frame layout with
    | .ok i => if frameWire legacy i = bytes then some i else none
    | .error _ => none

end Sys2Proof.Machine
end

