-- ==== Sys2Proof/Machine/Dispatch.lean ====
section
/-! DEFINITION. One arm per constructor of Instr, each one direct call of its meaning. -/

namespace Sys2Proof.Machine

def exec (i : Instr) (s : State) : Host.Outcome State Fault Refusal :=
  match i with
  | .encode => Sys2Proof.Machine.execEncode s
  | .decode => Sys2Proof.Machine.execDecode s
  | .xfer => Sys2Proof.Machine.execXfer s
  | .cksumGen addr cmd payload => Sys2Proof.Machine.execCksumGen addr cmd payload s
  | .cksumVfy u => Sys2Proof.Machine.execCksumVfy u s
  | .stuff inner => Sys2Proof.Machine.execStuff inner s
  | .unstuff body => Sys2Proof.Machine.execUnstuff body s
  | .flag => Sys2Proof.Machine.execFlag s
  | .esc => Sys2Proof.Machine.execEsc s
  | .ctl11 => Sys2Proof.Machine.execCtl11 s
  | .ctl13 => Sys2Proof.Machine.execCtl13 s
  | .literal v => Sys2Proof.Machine.execLiteral v s
  | .e5E => Sys2Proof.Machine.execE5E s
  | .e5D => Sys2Proof.Machine.execE5D s
  | .e31 => Sys2Proof.Machine.execE31 s
  | .e33 => Sys2Proof.Machine.execE33 s
  | .eInvalid e => Sys2Proof.Machine.execEInvalid e s
  | .frame addr cmd payload chk => Sys2Proof.Machine.execFrame addr cmd payload chk s

end Sys2Proof.Machine
end

