-- ==== Sys2Proof/Machine/Events.lean ====
section
/-! DEFINITION. What each input of an agent does: host accesses (10_state.md R22 to R40, 30_encoding.md R118, R119), received
bytes, ticks and reset. The bits of an input that select a row of the opcode table are decoded here and run by exec. -/

namespace Sys2Proof.Machine

open Config

/-- A register read by number (R22 to R37). A response register is refused while RSP_VALID = 0 (R47). -/
def State.readRegister (s : State) (num : Byte) : Except Refusal Word32 :=
  let response (v : Byte) : Except Refusal Word32 :=
    if s.rspValid then .ok (v.setWidth 32) else .error .rspNotValid
  match num.toNat with
  | 0x01 => .ok ((statusWord s).setWidth 32)
  | 0x02 => .ok ((cfgWord s).setWidth 32)
  | 0x03 => .ok ((resultWord s).setWidth 32)
  | 0x04 => .ok ((firstErrWord s).setWidth 32)
  | 0x05 => .ok (s.reqAddr.setWidth 32)
  | 0x06 => .ok (s.reqCmd.setWidth 32)
  | 0x07 => .ok (s.reqPlen.setWidth 32)
  | 0x08 => .ok s.timeout
  | 0x09 => .ok (s.wireLen.setWidth 32)
  | 0x0A => response s.rspAddr
  | 0x0B => response s.rspCmd
  | 0x0C => response s.rspLen
  | 0x0D => response (rspFlagsWord s)
  | _ => .ok 0

/-- A host read of a register: no side effect (20_memory.md R66); the value is what the host gets. -/
def hostReadReg (num : Byte) (s : State) : Host.Outcome State Fault Refusal :=
  match s.readRegister num with
  | .ok v => .next { s with hostData := v }
  | .error r => .refused r

/-- A write that is allowed only while STATUS.BUSY = 0 (30_encoding.md R118 c). -/
def whileIdle (s s' : State) : Host.Outcome State Fault Refusal :=
  if s.busy then .refused .writeWhileBusy else .next s'

/-- A host write of WIRE_LEN (R36, R119). -/
def writeWireLen (v : Word16) (s : State) : Host.Outcome State Fault Refusal :=
  if s.busy then .refused .writeWhileBusy
  else if wireMax < v.toNat then .refused .wireLenTooLarge
  else .next { s with wireLen := v }

/-- A host write of a register other than CTRL. Registers that the host only reads and reserved numbers ignore it (R37). -/
def hostWriteReg (num : Byte) (v : Word32) (s : State) : Host.Outcome State Fault Refusal :=
  match num.toNat with
  | 0x02 => whileIdle s { s with escLegacy := v.getLsbD 0 }
  | 0x05 => whileIdle s { s with reqAddr := v.setWidth 8 }
  | 0x06 => whileIdle s { s with reqCmd := v.setWidth 8 }
  | 0x07 => whileIdle s { s with reqPlen := v.setWidth 16 }
  | 0x08 => whileIdle s { s with timeout := v }
  | 0x09 => writeWireLen (v.setWidth 16) s
  | _ => .next s

/-- A host write of CTRL: it starts the operation its OP selects, or is refused (R31, R118). -/
def hostWriteCtrl (op : Byte) (s : State) : Host.Outcome State Fault Refusal :=
  match decode .ctrl [op] with
  | .ok i => exec i s
  | .error _ => .refused (.reservedOp op)

/-- A host read of a byte of a buffer (R38 to R40, R47). DESIGN CHOICE, log entry 15: an index outside the buffer is a
fault, found first. -/
def hostReadBuf (buf : Buf) (index : Nat) (s : State) : Host.Outcome State Fault Refusal :=
  if buf.capacity ≤ index then .fault (.noSuchByte buf index)
  else
    match buf with
    | .txpay =>
      match s.txpay.read index with
      | some b => .next { s with hostData := b.setWidth 32 }
      | none => .refused (.unwrittenByte .txpay)
    | .wire =>
      match s.wire.read index with
      | some b => .next { s with hostData := b.setWidth 32 }
      | none => .refused (.unwrittenByte .wire)
    | .rxpay =>
      if !s.rspValid then .refused .rspNotValid
      else if s.rspLen.toNat ≤ index then .refused (.unwrittenByte .rxpay)
      else
        match s.rxpay.read index with
        | some b => .next { s with hostData := b.setWidth 32 }
        | none => .refused (.unwrittenByte .rxpay)

/-- A host write of a byte of a buffer; RXPAY ignores it (R37). DEDUCED, log entry 14: while BUSY = 1 it is refused for
every buffer (R118 c). DESIGN CHOICE, log entry 15: an index outside the buffer is a fault, found first. -/
def hostWriteBuf (buf : Buf) (index : Nat) (v : Byte) (s : State) : Host.Outcome State Fault Refusal :=
  if buf.capacity ≤ index then .fault (.noSuchByte buf index)
  else
    match buf with
    | .txpay => whileIdle s { s with txpay := s.txpay.write index v }
    | .wire => whileIdle s { s with wire := s.wire.write index v }
    | .rxpay => whileIdle s s

/-- One `read` of the collaborator: where the bytes are exactly one frame's wire bytes they are a FRAME, else a run of
RxByte events (20_memory.md R70). -/
def receiveDelivery (bytes : List Byte) (s : State) : Host.Outcome State Fault Refusal :=
  match decodeDelivery s.escLegacy bytes with
  | some i => exec i s
  | none => .next (s.rxBytes bytes)

/-- Reset: every element of the block takes its reset value at once (70_reset_and_hazards.md R280, R281). What the
environment does afterwards is not the block's and stays (log entry 1). -/
def State.applyReset (s : State) : State := { State.reset with inputs := s.inputs }

/-- What an input does, taken to quiescence (00_scope.md R9). -/
def handle (e : Input) (s : State) : Host.Outcome State Fault Refusal :=
  match e with
  | .writeReg num v => if num = 0x00 then hostWriteCtrl (v.setWidth 8) s else hostWriteReg num v s
  | .writeBuf buf index v => hostWriteBuf buf index v s
  | .readReg num => hostReadReg num s
  | .readBuf buf index => hostReadBuf buf index s
  | .rxByte b => exec (decodeReceived s.scan.escPend b) s
  | .rx bytes => receiveDelivery bytes s
  | .tick => .next s.tick
  | .reset => .next s.applyReset

/-! ## Placing an instruction where the next step fetches it -/

/-- The input that carries the bytes of a table word: a write of CTRL, a received byte, or a delivered frame. -/
def inputOfWord (legacy : Bool) (bytes : List Byte) : Input :=
  match tableChannel bytes, bytes with
  | .ctrl, [op] => .writeReg 0x00 (op.setWidth 32)
  | .wire, [b] => .rxByte b
  | .escaped, [b] => .rxByte b
  | _, bs =>
    match decode .frame bs with
    | .ok i => .rx (frameWire legacy i)
    | .error _ => .rx bs

/-- Whether an ESC must be pending for the bytes of a table word to be read as its row. -/
def escPendOfWord (old : Bool) (bytes : List Byte) : Bool :=
  match tableChannel bytes with
  | .escaped => true
  | .wire => false
  | _ => old

/-- The state in which the next input carries the bytes of a table word. -/
def placeWord (s : State) (nbits w : Nat) : State :=
  { s with
    inputs := inputOfWord s.escLegacy (tableBytes nbits w) :: s.inputs
    scan := { s.scan with escPend := escPendOfWord s.scan.escPend (tableBytes nbits w) } }

end Sys2Proof.Machine
end

