-- ==== Sys2Proof/Machine/Step.lean ====
section
/-! DEFINITION. One step of the machine: the next input of the environment is taken and the framer runs to quiescence
(00_scope.md R9). With no input pending the block waits. -/

namespace Sys2Proof.Machine

/-- One step: the oldest input is removed and handled. A block with no input waits, unchanged (R208, R280). -/
def step (s : State) : Host.Outcome State Fault Refusal :=
  match s.inputs with
  | [] => .next s
  | e :: rest => handle e { s with inputs := rest }

/-- `s` with the instruction of a table word as the next thing that happens (log entries 1 and 11). -/
def State.withFetchWord (s : State) (nbits w : Nat) : State := placeWord s nbits w

end Sys2Proof.Machine
end

