-- ==== Sys2Proof/Safety.lean ====
section
/-! DEFINITION. What a good state is: the facts the spec states of every state between two environment events. -/

namespace Sys2Proof.Machine

open Config

/-- RXBUF holds nothing the synchronizer could act on: nothing, or a 0x7E and body bytes with no second 0x7E
(43_transport_session.md R208). -/
def rxSettled : List Byte → Bool
  | [] => true
  | b :: body => b == flagByte && !body.contains flagByte

/-- The framer waits in the receive phase (R208). -/
def State.Waiting (s : State) : Prop :=
  s.phase = .rx ∧ s.busy = true ∧ s.timer ≠ 0 ∧ rxSettled s.rxbuf = true

/-- The scan state between events: live for the unfinished candidate of the receive phase, else 0. DESIGN CHOICE, log entry
6: 10_state.md R44 does not say what a dead element holds. -/
def State.scanExpected (s : State) : Scan :=
  if s.phase = .rx then scanBody s.escLegacy s.rxbuf.tail else Scan.zero

/-- The invariant of the block between two environment events. -/
structure State.Inv (s : State) : Prop where
  /-- BUSY is 1 exactly in the receive phase of XFER (10_state.md R32; 43_transport_session.md R191). -/
  busy_iff : s.busy = true ↔ s.phase = .rx
  /-- No environment event is accepted in TX (R191). -/
  not_tx : s.phase ≠ .tx
  /-- In the receive phase the framer is quiescent: TIMER > 0 and nothing to act on (00_scope.md R9; R208). -/
  quiescent : s.phase = .rx → s.timer ≠ 0 ∧ rxSettled s.rxbuf = true
  /-- FIRST_ERR.CODE is non-zero exactly when RESYNCED = 1 (10_state.md R35). -/
  first_err : s.firstErr.isSome = s.resynced
  /-- WIRE_LEN is at most WIRE_MAX (R36). -/
  wire_len : s.wireLen.toNat ≤ wireMax
  /-- Each buffer is in canonical form and inside its index range (20_memory.md R60). -/
  txpay_ok : s.txpay.wf = true ∧ s.txpay.below payloadMax = true
  rxpay_ok : s.rxpay.wf = true ∧ s.rxpay.below payloadMax = true
  wire_ok : s.wire.wf = true ∧ s.wire.below wireMax = true
  /-- While RSP_VALID = 1 the response registers hold a frame: IS_RESPONSE is 1 and every payload byte holds a value
  (10_state.md R29, R32; 60_exceptions.md R252). -/
  rsp_ok : s.rspValid = true → s.rspIsResponse = true ∧ (s.rxpay.readFrom 0 s.rspLen.toNat).isSome = true
  /-- The transient scan state is as the model keeps it between events. DESIGN CHOICE, log entry 6. -/
  scan_ok : s.scan = s.scanExpected

/-- `t` is `s` with its XFER ended by the response `f`: the frame stored and correlated, the address first, `left` the
bytes that stay in RXBUF (43_transport_session.md R210, R211). -/
def State.Answered (s t : State) (f : Frame) (left : List Byte) : Prop :=
  t.rspAddr = f.addr ∧ t.rspCmd = f.cmd ∧ t.rspLen.toNat = f.payload.length ∧
  (∀ i, t.rxpay.read i = f.payload[i]?) ∧
  t = { s with
    rxbuf := left, rspValid := true, rspIsResponse := true, rspAddr := t.rspAddr, rspCmd := t.rspCmd,
    rspLen := t.rspLen, rxpay := t.rxpay, busy := false, phase := .idle, scan := t.scan,
    result := if f.addr ≠ s.reqAddr then .addressMismatch
      else if f.cmd ≠ s.reqCmd then .commandMismatch else .ok }

/-- `t` is `s` with its XFER ended by the failure `c`: RSP_VALID = 0, the response registers unspecified, `left` the bytes
that stay in RXBUF (R213; 60_exceptions.md R252). -/
def State.FailedWith (s t : State) (c : Code) (left : List Byte) : Prop :=
  t = { s with
    rxbuf := left, result := c, busy := false, phase := .idle, rspValid := false, rspAddr := t.rspAddr,
    rspCmd := t.rspCmd, rspLen := t.rspLen, rspIsResponse := t.rspIsResponse, rxpay := t.rxpay,
    freeCount := t.freeCount, scan := t.scan }

/-- The next step goes on: it neither faults nor is refused. -/
def State.GoesOn (s : State) : Prop := ∃ t, step s = .next t

end Sys2Proof.Machine
end

