-- ==== Sys2Proof/Certificates/Slice0/Obligations.lean ====
section
/-! DEFINITION. The statements for the provers. Each docstring names the rules of spec/ the statement rests on. -/

open Sys2Proof Sys2Proof.Machine Sys2Proof.Config

/-! ## Instruction decoding -/

/-- A few words of the opcode table, written out bit by bit from 30_encoding.md R103 to R115 and R91. -/
def Obligations.DecodedWordsAreTheTablesRows : Prop :=
  decode .ctrl [0b00000001] = .ok .encode ∧ decode .ctrl [0b00000010] = .ok .decode ∧
  decode .ctrl [0b00000011] = .ok .xfer ∧ decode .wire [0b01111110] = .ok .flag ∧
  decode .wire [0b01111101] = .ok .esc ∧ decode .wire [0b00010001] = .ok .ctl11 ∧
  decode .wire [0b00010011] = .ok .ctl13 ∧ decode .wire [0b01011110] = .ok (.literal 0x5E) ∧
  decode .escaped [0b01011110] = .ok .e5E ∧ decode .escaped [0b01011101] = .ok .e5D ∧
  decode .escaped [0b00110001] = .ok .e31 ∧ decode .escaped [0b00110011] = .ok .e33 ∧
  decode .escaped [0b01111101] = .ok (.eInvalid 0x7D) ∧
  decode .frame [0b01111110, 0x00, 0xD0, 0x00, 0x2F, 0b01111110] = .ok (.frame 0x00 0xD0 [] 0x2F) ∧
  decode .ctrl [0b00000000] = .error .reservedOp ∧ decode .ctrl [0b00000100] = .error .reservedOp

/-- DECODE AND ENCODE AGREE: every well-formed instruction that has an encoding is what its bytes decode to, with every
operand at every value (R91, R103 to R115). -/
def Obligations.DecodeOfEncodeIsTheInstruction : Prop :=
  ∀ (i : Instr) (ch : Channel), i.wellFormed = true → channelOf i = some ch → decode ch (encode i) = .ok i

/-- The other way round: bytes that decode are exactly the encoding of the instruction they decode to, which is well
formed; so no two rows of one channel share bytes (R91, R103 to R115). -/
def Obligations.DecodedBytesAreTheEncoding : Prop :=
  ∀ (ch : Channel) (bytes : List Byte) (i : Instr), decode ch bytes = .ok i →
    i.wellFormed = true ∧ channelOf i = some ch ∧ encode i = bytes

/-- A step runs the instruction that the oldest input carries, on the state without that input: a write of CTRL (R31,
R115), a received byte classed by ESC_PEND (30_encoding.md section 3), the delivered bytes of one frame. With no input
the block waits (R208). THE MODEL'S OWN CHOICES: the list of inputs (log entry 1), that a received byte runs a row of
the table (log entry 9), that a delivery of one frame's bytes runs FRAME, where R70 says a run of RxByte events (log
entry 10; O53 says that it makes no difference), and that a 32-bit value written to CTRL is cut to its 8 bits (log entry
12). -/
def Obligations.StepRunsTheDecodedInstruction : Prop :=
  (∀ (s : State) (v : Word32) (rest : List Input) (i : Instr), s.inputs = .writeReg 0x00 v :: rest →
    decode .ctrl [v.setWidth 8] = .ok i → i.wellFormed = true ∧ step s = exec i { s with inputs := rest }) ∧
  (∀ (s : State) (b : Byte) (rest : List Input) (i : Instr), s.inputs = .rxByte b :: rest →
    decode (if s.scan.escPend then .escaped else .wire) [b] = .ok i →
    i.wellFormed = true ∧ step s = exec i { s with inputs := rest }) ∧
  (∀ (s : State) (addr cmd chk : Byte) (payload : List Byte) (rest : List Input), payload.length ≤ 255 →
    s.inputs = .rx (wireOf s.escLegacy addr cmd payload chk) :: rest →
    step s = exec (.frame addr cmd payload chk) { s with inputs := rest }) ∧
  (∀ s : State, s.inputs = [] → step s = .next s)

/-! ## Reset -/

/-- What reset leaves, element by element (10_state.md R48). The response registers are unspecified: a read of them is
refused (R47). -/
def Obligations.ResetLeavesTheStatedValues : Prop :=
  let r := State.reset
  statusWord r = 0x00 ∧ cfgWord r = 0x01 ∧ resultWord r = 0x00 ∧ firstErrWord r = 0x00 ∧
  r.reqAddr = 0 ∧ r.reqCmd = 0 ∧ r.reqPlen = 0 ∧ r.timeout = 0 ∧ r.wireLen = 0 ∧
  (∀ num : Byte, 0x0A ≤ num → num ≤ 0x0D → r.readRegister num = .error .rspNotValid) ∧
  (∀ i, r.txpay.read i = none ∧ r.rxpay.read i = none ∧ r.wire.read i = none) ∧
  r.rxbuf = [] ∧ r.txout = [] ∧ r.timer = 0 ∧
  r.scan.idx = 0 ∧ r.scan.escPend = false ∧ r.scan.sum = 0

/-- Reset in any state, an operation in progress included, abandons it: every element of the block takes the value it
has in State.reset (70_reset_and_hazards.md R280, R281). THE MODEL'S OWN CHOICES: RSP_ADDR, RSP_CMD, RSP_LEN and
RSP_FLAGS, to which 10_state.md R48 gives no value, become 0 (DESIGN CHOICE, log entry 2), the model's own fields take
the values their log entries name (3, 7, 8, 12), and what the environment does next stays (log entry 1). -/
def Obligations.ResetAbandonsAnyOperation : Prop :=
  ∀ (s : State) (rest : List Input), s.inputs = .reset :: rest → step s = .next { State.reset with inputs := rest }

/-! ## Host accesses -/

/-- Every register reads as its layout says, the reserved bits 0, RESULT and FIRST_ERR by the numbers of 60_exceptions.md
R240, and the read changes nothing of the block (10_state.md R22 to R36; 20_memory.md R66). THE MODEL'S OWN CHOICES:
`hostData` (log entry 12), and that a read while STATUS.BUSY = 1 gives the current contents, where
70_reset_and_hazards.md R298 tells the host not to read the results (DEDUCED, unsafe, log entry 13). -/
def Obligations.RegistersReadAsLaidOut : Prop :=
  ∀ s : State,
    handle (.readReg 0x00) s = .next { s with hostData := 0 } ∧
    (∃ w : Byte, handle (.readReg 0x01) s = .next { s with hostData := w.setWidth 32 } ∧
      w.getLsbD 0 = s.busy ∧
      w.extractLsb' 1 2 = (match s.phase with | .idle => 0 | .tx => 1 | .rx => 2) ∧
      w.getLsbD 3 = s.resynced ∧ w.getLsbD 4 = s.rspValid ∧ w.extractLsb' 5 3 = 0) ∧
    handle (.readReg 0x02) s = .next { s with hostData := if s.escLegacy then 1 else 0 } ∧
    handle (.readReg 0x03) s =
      .next { s with hostData :=
        match s.result with
        | .ok => 0
        | .payloadTooLarge => 1
        | .framingError => 2
        | .unstuffingError => 3
        | .checksumMismatch => 4
        | .lengthMismatch => 5
        | .timeout => 6
        | .addressMismatch => 7
        | .commandMismatch => 8 } ∧
    handle (.readReg 0x04) s =
      .next { s with hostData :=
        match s.firstErr with
        | none => 0
        | some .framing => 2
        | some .unstuffing => 3
        | some .checksum => 4
        | some .length => 5 } ∧
    handle (.readReg 0x05) s = .next { s with hostData := s.reqAddr.setWidth 32 } ∧
    handle (.readReg 0x06) s = .next { s with hostData := s.reqCmd.setWidth 32 } ∧
    handle (.readReg 0x07) s = .next { s with hostData := s.reqPlen.setWidth 32 } ∧
    handle (.readReg 0x08) s = .next { s with hostData := s.timeout } ∧
    handle (.readReg 0x09) s = .next { s with hostData := s.wireLen.setWidth 32 } ∧
    (s.rspValid = true →
      handle (.readReg 0x0A) s = .next { s with hostData := s.rspAddr.setWidth 32 } ∧
      handle (.readReg 0x0B) s = .next { s with hostData := s.rspCmd.setWidth 32 } ∧
      handle (.readReg 0x0C) s = .next { s with hostData := s.rspLen.setWidth 32 } ∧
      handle (.readReg 0x0D) s = .next { s with hostData := if s.rspIsResponse then 1 else 0 })

/-- No host read changes any element of the block, and reading again gives the same (20_memory.md R66). A host read of a
buffer byte that holds a value returns that byte, of that buffer and at that index: TXPAY (10_state.md R38), WIRE (R40),
and RXPAY below RSP_LEN while RSP_VALID = 1 (R39, R47). What the registers return is O7's. THE MODEL'S OWN CHOICES:
`hostData` holds what a read returned (log entry 12), and a read is allowed while busy (DEDUCED, log entry 13). -/
def Obligations.HostReadsHaveNoSideEffect : Prop :=
  (∀ (s t : State) (e : Input), ((∃ num, e = .readReg num) ∨ ∃ buf i, e = .readBuf buf i) →
    handle e s = .next t → t = { s with hostData := t.hostData } ∧ handle e t = .next t) ∧
  (∀ (s : State) (i : Nat) (b : Byte), i < 255 → s.txpay.read i = some b →
    handle (.readBuf .txpay i) s = .next { s with hostData := b.setWidth 32 }) ∧
  (∀ (s : State) (i : Nat) (b : Byte), i < 519 → s.wire.read i = some b →
    handle (.readBuf .wire i) s = .next { s with hostData := b.setWidth 32 }) ∧
  (∀ (s : State) (i : Nat) (b : Byte), s.rspValid = true → i < s.rspLen.toNat → s.rxpay.read i = some b →
    handle (.readBuf .rxpay i) s = .next { s with hostData := b.setWidth 32 })

/-- While the block is idle a host write reaches the register or the byte it names and nothing else (10_state.md R22 to
R25, R33, R36, R38, R40). A 32-bit value is cut to the register's width (log entry 12). -/
def Obligations.IdleHostWritesReachTheirTarget : Prop :=
  ∀ s : State, s.busy = false →
    (∀ v : Word32,
      handle (.writeReg 0x02 v) s = .next { s with escLegacy := v.getLsbD 0 } ∧
      handle (.writeReg 0x05 v) s = .next { s with reqAddr := v.setWidth 8 } ∧
      handle (.writeReg 0x06 v) s = .next { s with reqCmd := v.setWidth 8 } ∧
      handle (.writeReg 0x07 v) s = .next { s with reqPlen := v.setWidth 16 } ∧
      handle (.writeReg 0x08 v) s = .next { s with timeout := v }) ∧
    (∀ n : Word16, n.toNat ≤ 519 →
      handle (.writeReg 0x09 (n.setWidth 32)) s = .next { s with wireLen := n }) ∧
    (∀ (i : Nat) (b : Byte), i < 255 → ∃ t, handle (.writeBuf .txpay i b) s = .next t ∧
      t = { s with txpay := t.txpay } ∧ ∀ j, t.txpay.read j = if j = i then some b else s.txpay.read j) ∧
    (∀ (i : Nat) (b : Byte), i < 519 → ∃ t, handle (.writeBuf .wire i b) s = .next t ∧
      t = { s with wire := t.wire } ∧ ∀ j, t.wire.read j = if j = i then some b else s.wire.read j)

/-- Reserved register numbers read 0 and ignore writes; registers that the host only reads ignore writes, and so does
RXPAY while the block is idle (10_state.md R37). While BUSY = 1 the model refuses a write of RXPAY and still ignores one
of a read-only register (DEDUCED, log entry 14), so this statement says only the idle half of that sentence for RXPAY.
-/
def Obligations.ReservedAndReadOnlyAccesses : Prop :=
  (∀ (s : State) (num : Byte) (v : Word32), 0x0E ≤ num →
    handle (.readReg num) s = .next { s with hostData := 0 } ∧ handle (.writeReg num v) s = .next s) ∧
  (∀ (s : State) (num : Byte) (v : Word32),
    num ∈ [(0x01 : Byte), 0x03, 0x04, 0x0A, 0x0B, 0x0C, 0x0D] → handle (.writeReg num v) s = .next s) ∧
  (∀ (s : State) (i : Nat) (v : Byte), s.busy = false → i < 255 → handle (.writeBuf .rxpay i v) s = .next s)

/-- The reserved host encodings (a), (b) and (c) are refused, each by name (30_encoding.md R118). THE MODEL'S OWN
CHOICES: which name is given where two of them meet, reservedOp before ctrlWhileBusy and writeWhileBusy before
wireLenTooLarge (DESIGN CHOICE, log entry 17), that a 32-bit value written to CTRL is cut to its 8 bits (log entry 12),
and that (c) takes in RXPAY (DEDUCED, log entry 14). -/
def Obligations.ReservedHostEncodingsAreRefused : Prop :=
  (∀ (s : State) (v : Word32) (op : Byte), op = v.setWidth 8 → op = 0x00 ∨ 0x04 ≤ op →
    handle (.writeReg 0x00 v) s = .refused (.reservedOp op)) ∧
  (∀ (s : State) (v : Word32), s.busy = true → (v.setWidth 8 : Byte) ∈ [(0x01 : Byte), 0x02, 0x03] →
    handle (.writeReg 0x00 v) s = .refused .ctrlWhileBusy) ∧
  (∀ (s : State) (num : Byte) (v : Word32), s.busy = true →
    num ∈ [(0x02 : Byte), 0x05, 0x06, 0x07, 0x08, 0x09] → handle (.writeReg num v) s = .refused .writeWhileBusy) ∧
  (∀ (s : State) (i : Nat) (v : Byte), s.busy = true →
    (i < 255 → handle (.writeBuf .txpay i v) s = .refused .writeWhileBusy ∧
      handle (.writeBuf .rxpay i v) s = .refused .writeWhileBusy) ∧
    (i < 519 → handle (.writeBuf .wire i v) s = .refused .writeWhileBusy))

/-- A host write of WIRE_LEN above 519 is refused (30_encoding.md R119). -/
def Obligations.WireLenAboveMaximumIsRefused : Prop :=
  ∀ (s : State) (n : Word16), s.busy = false → 519 < n.toNat →
    handle (.writeReg 0x09 (n.setWidth 32)) s = .refused .wireLenTooLarge

/-- A host access to an index that a buffer does not have is the fault noSuchByte, in every state. 20_memory.md R60 gives
the index ranges of the buffers alone. THE MODEL'S OWN CHOICES: that such an access faults, and that the fault is found
before the other stops, so also while BUSY = 1, where 30_encoding.md R118 (c) refuses a write, and while RSP_VALID = 0,
where 10_state.md R47 refuses a read of RXPAY (DESIGN CHOICE, log entry 15). -/
def Obligations.IndexOutsideABufferFaults : Prop :=
  ∀ (s : State) (buf : Buf) (i : Nat) (v : Byte), (match buf with | .wire => 519 | _ => 255) ≤ i →
    handle (.readBuf buf i) s = .fault (.noSuchByte buf i) ∧ handle (.writeBuf buf i v) s = .fault (.noSuchByte buf i)

/-- An operation or a host read that needs a byte nothing has written, or a response register while RSP_VALID = 0, or a
byte of RXPAY at or above RSP_LEN, is refused (10_state.md R47; for a host read of TXPAY and WIRE also
93_implementation_defined.md U3). -/
def Obligations.ValuelessReadsAreRefused : Prop :=
  (∀ (s : State) (i : Nat), s.busy = false → s.reqPlen.toNat ≤ 255 → i < s.reqPlen.toNat → s.txpay.read i = none →
    exec .encode s = .refused (.unwrittenByte .txpay) ∧ exec .xfer s = .refused (.unwrittenByte .txpay)) ∧
  (∀ (s : State) (i : Nat), s.busy = false → i < s.wireLen.toNat → s.wire.read i = none →
    exec .decode s = .refused (.unwrittenByte .wire)) ∧
  (∀ (s : State) (num : Byte), s.rspValid = false → 0x0A ≤ num → num ≤ 0x0D →
    handle (.readReg num) s = .refused .rspNotValid) ∧
  (∀ (s : State) (i : Nat), s.rspValid = false → i < 255 → handle (.readBuf .rxpay i) s = .refused .rspNotValid) ∧
  (∀ (s : State) (i : Nat), s.rspValid = true → s.rspLen.toNat ≤ i → i < 255 →
    handle (.readBuf .rxpay i) s = .refused (.unwrittenByte .rxpay)) ∧
  (∀ (s : State) (i : Nat), i < 255 → s.txpay.read i = none →
    handle (.readBuf .txpay i) s = .refused (.unwrittenByte .txpay)) ∧
  (∀ (s : State) (i : Nat), i < 519 → s.wire.read i = none →
    handle (.readBuf .wire i) s = .refused (.unwrittenByte .wire))

/-! ## Checksum -/

/-- `cks` and its equal forms (40_checksum.md R130) and its six laws (R131). -/
def Obligations.ChecksumLaws : Prop :=
  (∀ s : List Byte, (cks s).toNat = 255 - byteSum s % 256 ∧ cks s = ~~~(BitVec.ofNat 8 (byteSum s)) ∧
    cks s = BitVec.ofNat 8 (byteSum s) ^^^ 0xFF) ∧
  cks [] = 0xFF ∧
  (∀ s t : List Byte, s.Perm t → cks s = cks t) ∧
  (∀ s : List Byte, (byteSum s + (cks s).toNat) % 256 = 255) ∧
  (∀ (l r : List Byte) (b d : Byte), cks (l ++ (b + d) :: r) = cks (l ++ b :: r) - d ∧
    (d ≠ 0 → cks (l ++ (b + d) :: r) ≠ cks (l ++ b :: r))) ∧
  (∀ s : List Byte, cks s = 0xFF - s.foldl (· + ·) 0)

/-- CKSUM_GEN completes in every state: its result is the inverted sum of address, command, length and payload, SUM is
written, nothing else of the block changes (40_checksum.md R132). Where the result is handed back is the model's (log
entry 8). -/
def Obligations.CksumGenHandsBackTheChecksum : Prop :=
  ∀ (addr cmd : Byte) (payload : List Byte) (s : State), payload.length ≤ 255 →
    ∃ chk total : Byte,
      chk.toNat = 255 - (addr.toNat + cmd.toNat + payload.length + byteSum payload) % 256 ∧
      total.toNat = (addr.toNat + cmd.toNat + payload.length + byteSum payload) % 256 ∧
      exec (.cksumGen addr cmd payload) s =
        .next { s with scan := { s.scan with sum := total }, unitOut := .byte chk }

/-- CKSUM_VFY completes in every state: it passes exactly where the sum of all inner bytes, the checksum included, is
0xFF modulo 256 (40_checksum.md R133, R131). Where the result is handed back is the model's (log entry 8). -/
def Obligations.CksumVfyPassesExactlyOnARightChecksum : Prop :=
  ∀ (before : List Byte) (chk : Byte) (s : State), 3 ≤ before.length →
    exec (.cksumVfy (before ++ [chk])) s =
      .next { s with unitOut := if (byteSum before + chk.toNat) % 256 = 255 then .pass else .fail .checksum }

/-! ## Stuffing -/

/-- The escape set and the four escape pairs (30_encoding.md R100, R101, R102). -/
def Obligations.EscapePairsAreTheFour : Prop :=
  (∀ b : Byte, (inEscSet true b = true ↔ b ∈ [(0x7E : Byte), 0x7D, 0x11, 0x13]) ∧
    (inEscSet false b = true ↔ b ∈ [(0x7E : Byte), 0x7D])) ∧
  (∀ x : Bool, stuff1 x 0x7E = [0x7D, 0x5E] ∧ stuff1 x 0x7D = [0x7D, 0x5D]) ∧
  stuff1 true 0x11 = [0x7D, 0x31] ∧ stuff1 true 0x13 = [0x7D, 0x33] ∧
  stuff1 false 0x11 = [0x11] ∧ stuff1 false 0x13 = [0x13] ∧
  (∀ x : Bool, ∀ e ∈ [(0x5E : Byte), 0x5D, 0x31, 0x33], inEscSet x e = false)

/-- STUFF completes in every state: each byte of the escape set becomes ESC and the byte exclusive or 0x20, every other
byte stays, and no element of the block changes (41_stuffing.md R140, R141). Where the result is handed back is the
model's (log entry 8). -/
def Obligations.StuffHandsBackTheStuffedBytes : Prop :=
  ∀ (inner : List Byte) (s : State),
    exec (.stuff inner) s =
      .next { s with unitOut := .bytes (inner.flatMap fun b =>
        if b = 0x7E ∨ b = 0x7D ∨ (s.escLegacy = true ∧ (b = 0x11 ∨ b = 0x13)) then [0x7D, b ^^^ 0x20] else [b]) }

/-- What STUFF guarantees: no 0x7E at all, 0x7D only as the first byte of an escape pair, and with ESC_LEGACY = 1 no 0x11
and no 0x13 (41_stuffing.md R142). -/
def Obligations.StuffedBytesHoldOnlyEscapePairs : Prop :=
  ∀ (x : Bool) (inner : List Byte),
    (0x7E : Byte) ∉ stuff x inner ∧
    (∀ l r, stuff x inner = l ++ 0x7D :: r →
      ∃ e r', r = e :: r' ∧ (e = 0x5E ∨ e = 0x5D ∨ (x = true ∧ (e = 0x31 ∨ e = 0x33)))) ∧
    (x = true → (0x11 : Byte) ∉ stuff x inner ∧ (0x13 : Byte) ∉ stuff x inner)

/-- What the forward scan of UNSTUFF computes, byte class by byte class: an escape pair stands for one byte of the escape
set or fails, every other byte stands for itself (41_stuffing.md R145); and its output is never longer than its input and
at least half of it. -/
def Obligations.UnstuffReadsByteClasses : Prop :=
  ∀ x : Bool,
    unstuff x [] = .ok [] ∧
    (∀ (e : Byte) (rest : List Byte), unstuff x (0x7D :: e :: rest) =
      if inEscSet x (e ^^^ 0x20) then (unstuff x rest).map ((e ^^^ 0x20) :: ·) else .error .unstuffing) ∧
    (∀ (b : Byte) (rest : List Byte), b ≠ 0x7D → unstuff x (b :: rest) = (unstuff x rest).map (b :: ·)) ∧
    (∀ body u, unstuff x body = .ok u → u.length ≤ body.length ∧ body.length ≤ 2 * u.length)

/-- A dangling escape: a body that ends in an ESC that opens a pair fails with UnstuffingError (41_stuffing.md R146). -/
def Obligations.DanglingEscapeFails : Prop :=
  ∀ (x : Bool) (body u : List Byte), unstuff x body = .ok u → unstuff x (body ++ [0x7D]) = .error .unstuffing

/-- UNSTUFF completes in every state: it hands back the inner bytes or the failure; IDX and ESC_PEND are written, SUM
and everything else of the block is not (41_stuffing.md R145). Where the result is handed back is the model's (log entry
8). -/
def Obligations.UnstuffHandsBackTheInnerBytes : Prop :=
  ∀ (body : List Byte) (s : State), (0x7E : Byte) ∉ body →
    (∀ u, unstuff s.escLegacy body = .ok u →
      ∃ t, exec (.unstuff body) s = .next t ∧ t = { s with scan := t.scan, unitOut := .bytes u } ∧
        t.scan.idx = BitVec.ofNat 16 body.length ∧ t.scan.escPend = false ∧ t.scan.sum = s.scan.sum) ∧
    (∀ e, unstuff s.escLegacy body = .error e →
      ∃ t, exec (.unstuff body) s = .next t ∧ t = { s with scan := t.scan, unitOut := .fail .unstuffing } ∧
        t.scan.sum = s.scan.sum)

/-- UNSTUFF undoes STUFF at one configuration; bytes stuffed at 0 are read at 1; bytes stuffed at 1 fail at 0 exactly
where a 0x11 or 0x13 was stuffed; and STUFF does not undo UNSTUFF (41_stuffing.md R147). -/
def Obligations.UnstuffUndoesStuff : Prop :=
  (∀ (x : Bool) (s : List Byte), unstuff x (stuff x s) = .ok s) ∧
  (∀ s : List Byte, unstuff true (stuff false s) = .ok s) ∧
  (∀ s : List Byte, unstuff false (stuff true s) =
    if (0x11 : Byte) ∈ s ∨ (0x13 : Byte) ∈ s then .error .unstuffing else .ok s) ∧
  unstuff true [0x11] = .ok [0x11] ∧ stuff true [0x11] = [0x7D, 0x31]

/-! ## The frame codec -/

/-- encode as a function: PayloadTooLarge exactly above 255 bytes, else the two delimiters around the stuffed inner
bytes, the last of which is the checksum (42_frame_codec.md R160). -/
def Obligations.EncodeFunction : Prop :=
  ∀ (x : Bool) (addr cmd : Byte) (payload : List Byte),
    (255 < payload.length → encodeFrame x addr cmd payload = .error .payloadTooLarge) ∧
    (payload.length ≤ 255 → ∃ chk : Byte,
      chk.toNat = 255 - (addr.toNat + cmd.toNat + payload.length + byteSum payload) % 256 ∧
      encodeFrame x addr cmd payload =
        .ok ([0x7E] ++ stuff x ([addr, cmd, BitVec.ofNat 8 payload.length] ++ payload ++ [chk]) ++ [0x7E]))

/-- The shape of every encoded frame: 0x7E first, last and nowhere else; 6 + L + s bytes, s the number of inner bytes in
the escape set; 6 to 519 bytes (42_frame_codec.md R166). -/
def Obligations.EncodedFrameShape : Prop :=
  ∀ (x : Bool) (addr cmd : Byte) (payload w : List Byte), encodeFrame x addr cmd payload = .ok w →
    (∃ body, w = 0x7E :: (body ++ [0x7E]) ∧ (0x7E : Byte) ∉ body) ∧
    w.length = 6 + payload.length + (innerBytes addr cmd payload (cksumGen addr cmd payload)).countP (inEscSet x) ∧
    6 ≤ w.length ∧ w.length ≤ 519

/-- ENCODE, the host operation: it completes where the block is idle and the payload is written, WIRE and WIRE_LEN hold
the frame, and nothing else changes but RESULT (and the dead scan state); above 255 payload bytes RESULT alone changes
(42_frame_codec.md R165). That WIRE holds no byte above the frame is the model's choice (log entry 5). -/
def Obligations.EncodeOperation : Prop :=
  (∀ (s : State) (payload w : List Byte), s.busy = false → s.reqPlen.toNat ≤ 255 →
    payload.length = s.reqPlen.toNat → (∀ i, i < payload.length → s.txpay.read i = payload[i]?) →
    encodeFrame s.escLegacy s.reqAddr s.reqCmd payload = .ok w →
    ∃ t, exec .encode s = .next t ∧ (∀ i, t.wire.read i = w[i]?) ∧ t.wireLen.toNat = w.length ∧
      t = { s with wire := t.wire, wireLen := t.wireLen, scan := t.scan, result := .ok, phase := .idle }) ∧
  (∀ s : State, s.busy = false → 255 < s.reqPlen.toNat →
    exec .encode s = .next { s with result := .payloadTooLarge, phase := .idle })

/-- decode as a function of any byte sequence: the five stages in order, the first that fails reported
(42_frame_codec.md R170). -/
def Obligations.DecodeFunction : Prop :=
  ∀ x : Bool,
    (∀ raw : List Byte, raw.length < 2 ∨ raw.head? ≠ some 0x7E ∨ raw.getLast? ≠ some 0x7E ∨
        (0x7E : Byte) ∈ raw.tail.dropLast →
      decodeFrame x raw = .error .framing) ∧
    (∀ body : List Byte, (0x7E : Byte) ∉ body →
      decodeFrame x (0x7E :: (body ++ [0x7E])) =
        match unstuff x body with
        | .error e => .error e
        | .ok u =>
          if u.length < 4 then .error .framing
          else if cks u.dropLast ≠ u.getLastD 0 then .error .checksum
          else if (u.getD 2 0).toNat ≠ u.length - 4 then .error .length
          else .ok { addr := u.getD 0 0, cmd := u.getD 1 0, payload := (u.drop 3).dropLast, isResponse := true })

/-- The longest byte sequence that decodes has 519 bytes: no longer one decodes, and at either configuration one of 519
does (42_frame_codec.md R176). -/
def Obligations.LongestAcceptedFrame : Prop :=
  ∀ x : Bool,
    (∀ (raw : List Byte) (f : Frame), decodeFrame x raw = .ok f → raw.length ≤ 519) ∧
    ∃ (raw : List Byte) (f : Frame), raw.length = 519 ∧ decodeFrame x raw = .ok f

/-- DECODE, the host operation: it completes where the block is idle and WIRE[0 .. WIRE_LEN-1] is written. A frame is
stored with RSP_VALID = 1; a failure is the outcome, with RSP_VALID = 0 and the response registers unspecified; nothing
else changes but RESULT (and the dead scan state) (42_frame_codec.md R177). That RXPAY holds no byte above the payload is
the model's choice (log entry 5). -/
def Obligations.DecodeOperation : Prop :=
  ∀ (s : State) (raw : List Byte), s.busy = false → raw.length = s.wireLen.toNat →
    (∀ i, i < raw.length → s.wire.read i = raw[i]?) →
    (∀ f, decodeFrame s.escLegacy raw = .ok f → ∃ t, exec .decode s = .next t ∧
      t.rspAddr = f.addr ∧ t.rspCmd = f.cmd ∧ t.rspLen.toNat = f.payload.length ∧
      (∀ i, t.rxpay.read i = f.payload[i]?) ∧
      t = { s with
        rspAddr := t.rspAddr, rspCmd := t.rspCmd, rspLen := t.rspLen, rspIsResponse := true, rxpay := t.rxpay,
        rspValid := true, scan := t.scan, result := .ok, phase := .idle }) ∧
    (∀ e, decodeFrame s.escLegacy raw = .error e → ∃ t, exec .decode s = .next t ∧
      t = { s with
        rspAddr := t.rspAddr, rspCmd := t.rspCmd, rspLen := t.rspLen, rspIsResponse := t.rspIsResponse,
        rxpay := t.rxpay, freeCount := t.freeCount, rspValid := false, scan := t.scan, phase := .idle,
        result := match e with
          | .framing => .framingError
          | .unstuffing => .unstuffingError
          | .checksum => .checksumMismatch
          | .length => .lengthMismatch })

/-- ROUND TRIP (42_frame_codec.md R181; 00_scope.md R16): decode of encode gives the frame back at one configuration, and
from 0 to 1; from 1 to 0 it fails with UnstuffingError exactly where an inner byte is 0x11 or 0x13; and encode of what
decodes gives the bytes back, at ESC_LEGACY = 1 where no unescaped 0x11 or 0x13 stands in them. -/
def Obligations.CodecRoundTrip : Prop :=
  (∀ (x : Bool) (addr cmd : Byte) (payload w : List Byte), encodeFrame x addr cmd payload = .ok w →
    decodeFrame x w = .ok { addr := addr, cmd := cmd, payload := payload, isResponse := true }) ∧
  (∀ (addr cmd : Byte) (payload w : List Byte), encodeFrame false addr cmd payload = .ok w →
    decodeFrame true w = .ok { addr := addr, cmd := cmd, payload := payload, isResponse := true }) ∧
  (∀ (addr cmd : Byte) (payload w : List Byte), encodeFrame true addr cmd payload = .ok w →
    (decodeFrame false w = .error .unstuffing ↔
      (0x11 : Byte) ∈ innerBytes addr cmd payload (cksumGen addr cmd payload) ∨
      (0x13 : Byte) ∈ innerBytes addr cmd payload (cksumGen addr cmd payload))) ∧
  (∀ (x : Bool) (raw : List Byte) (f : Frame), decodeFrame x raw = .ok f →
    (x = true → (0x11 : Byte) ∉ raw ∧ (0x13 : Byte) ∉ raw) →
    encodeFrame x f.addr f.cmd f.payload = .ok raw)

/-- NO SINGLE-BIT ERROR IS ACCEPTED: an encoded frame with one bit of one byte inverted fails to decode, with
FramingError, UnstuffingError or ChecksumMismatch and never LengthMismatch, whichever configuration `x` encoded it and
whichever `y` decodes it (42_frame_codec.md R180; 00_scope.md R16). -/
def Obligations.SingleBitErrorsAreDetected : Prop :=
  ∀ (x y : Bool) (addr cmd : Byte) (payload w : List Byte) (i : Nat) (b : Byte) (k : Nat),
    encodeFrame x addr cmd payload = .ok w → w[i]? = some b → k < 8 →
    ∃ e, decodeFrame y (w.set i (b ^^^ (1#8 <<< k))) = .error e ∧ e ≠ .length

/-- ENCODE and then DECODE on the WIRE contents it left give the request back in the response registers
(42_frame_codec.md R181; 30_encoding.md R123). -/
def Obligations.HostEncodeThenDecodeReturnsTheRequest : Prop :=
  ∀ (s : State) (payload : List Byte), s.busy = false → s.reqPlen.toNat ≤ 255 →
    payload.length = s.reqPlen.toNat → (∀ i, i < payload.length → s.txpay.read i = payload[i]?) →
    ∃ t u, exec .encode s = .next t ∧ exec .decode t = .next u ∧ u.result = .ok ∧ u.rspValid = true ∧
      u.rspAddr = s.reqAddr ∧ u.rspCmd = s.reqCmd ∧ u.rspLen.toNat = s.reqPlen.toNat ∧
      (∀ i, i < payload.length → u.rxpay.read i = s.txpay.read i) ∧
      u.txout = s.txout ∧ u.rxbuf = s.rxbuf ∧ u.timer = s.timer

/-! ## XFER -/

/-- XFER with REQ_PLEN > 255 ends at once: nothing is sent, RXBUF and TIMER are not touched, RSP_VALID is 0 and the
response registers are unspecified (43_transport_session.md R193; 60_exceptions.md R251). -/
def Obligations.XferPayloadTooLarge : Prop :=
  ∀ s : State, s.busy = false → 255 < s.reqPlen.toNat →
    ∃ t, exec .xfer s = .next t ∧
      t = { s with
        result := .payloadTooLarge, phase := .idle, resynced := false, firstErr := none, rspValid := false,
        rspAddr := t.rspAddr, rspCmd := t.rspCmd, rspLen := t.rspLen, rspIsResponse := t.rspIsResponse,
        rxpay := t.rxpay, freeCount := t.freeCount }

/-- XFER completes where the block is idle and the payload is written: it sends the encoded request whole and once, loads
TIMER, removes bytes from the front of RXBUF only, touches no operand and neither WIRE nor WIRE_LEN, and has either ended
or waits in the receive phase (43_transport_session.md R190, R194, R195, R196, R200). -/
def Obligations.XferSendsOneFrame : Prop :=
  ∀ (s : State) (payload w : List Byte), s.busy = false → s.reqPlen.toNat ≤ 255 →
    payload.length = s.reqPlen.toNat → (∀ i, i < payload.length → s.txpay.read i = payload[i]?) →
    encodeFrame s.escLegacy s.reqAddr s.reqCmd payload = .ok w →
    ∃ t, exec .xfer s = .next t ∧ t.txout = s.txout ++ w ∧ t.timer = s.timeout ∧ t.rxbuf <:+ s.rxbuf ∧
      (t.phase = .idle ∧ t.busy = false ∨ t.Waiting) ∧
      t = { s with
        busy := t.busy, phase := t.phase, resynced := t.resynced, rspValid := t.rspValid, result := t.result,
        firstErr := t.firstErr, rspAddr := t.rspAddr, rspCmd := t.rspCmd, rspLen := t.rspLen,
        rspIsResponse := t.rspIsResponse, rxpay := t.rxpay, rxbuf := t.rxbuf, txout := t.txout, timer := t.timer,
        scan := t.scan, freeCount := t.freeCount }

/-- XFER that finds no frame to accept and no second failure in RXBUF (43_transport_session.md R192, R200). RXBUF holds
bytes that are no delimiter, then a run of delimiters, then an unfinished body, each possibly empty: the first bytes are
discarded (R203) and the run is cut to its last delimiter (R207), with no failure and no retry spent. Or a candidate that
fails stands in front of that last run and body: it is absorbed, its closing delimiter kept (R212). Then, with TIMEOUT > 0,
XFER waits, RSP_VALID, the response registers and RESULT not touched (R208); with TIMEOUT = 0 it ends with Timeout, the
frame sent all the same (R219, R220). Either way RESYNCED and FIRST_ERR hold the failure, or are cleared where there is
none (R221). -/
def Obligations.XferWithNothingBuffered : Prop :=
  ∀ (s : State) (payload w junk body : List Byte), s.busy = false → s.reqPlen.toNat ≤ 255 →
    payload.length = s.reqPlen.toNat → (∀ i, i < payload.length → s.txpay.read i = payload[i]?) →
    encodeFrame s.escLegacy s.reqAddr s.reqCmd payload = .ok w →
    (0x7E : Byte) ∉ junk → (0x7E : Byte) ∉ body →
    let settles (failure : Option DecodeErr) (left : List Byte) : Prop :=
      (s.timeout ≠ 0 → ∃ t, exec .xfer s = .next t ∧
        t = { s with
          busy := true, phase := .rx, resynced := failure.isSome, firstErr := failure, txout := s.txout ++ w,
          timer := s.timeout, rxbuf := left, scan := t.scan }) ∧
      (s.timeout = 0 → ∃ t, exec .xfer s = .next t ∧
        { s with resynced := failure.isSome, firstErr := failure, txout := s.txout ++ w, timer := 0 }.FailedWith t
          .timeout left)
    (∀ n : Nat, s.rxbuf = junk ++ List.replicate n 0x7E ++ body →
      settles none (if n = 0 then [] else 0x7E :: body)) ∧
    (∀ (n m : Nat) (damaged : List Byte) (e : DecodeErr), damaged ≠ [] → (0x7E : Byte) ∉ damaged →
      decodeFrame s.escLegacy (0x7E :: (damaged ++ [0x7E])) = .error e →
      s.rxbuf = junk ++ List.replicate (n + 1) 0x7E ++ damaged ++ List.replicate (m + 1) 0x7E ++ body →
      settles (some e) (0x7E :: body))

/-- STALE BYTES: a complete frame already in RXBUF, behind any bytes that are no delimiter, is taken as the response
whatever TIMEOUT is, and correlated with the request, the address first; the bytes behind it stay
(43_transport_session.md R203, R210, R211, R220; 70_reset_and_hazards.md R293). That RXPAY holds no byte above the
payload is the model's choice (log entry 5). -/
def Obligations.XferTakesABufferedFrame : Prop :=
  ∀ (s : State) (payload w junk reply after : List Byte) (addr cmd : Byte) (q : List Byte),
    s.busy = false → s.reqPlen.toNat ≤ 255 →
    payload.length = s.reqPlen.toNat → (∀ i, i < payload.length → s.txpay.read i = payload[i]?) →
    encodeFrame s.escLegacy s.reqAddr s.reqCmd payload = .ok w →
    (0x7E : Byte) ∉ junk → encodeFrame s.escLegacy addr cmd q = .ok reply → s.rxbuf = junk ++ reply ++ after →
    ∃ t, exec .xfer s = .next t ∧
      t.rspAddr = addr ∧ t.rspCmd = cmd ∧ t.rspLen.toNat = q.length ∧ (∀ i, t.rxpay.read i = q[i]?) ∧
      t = { s with
        busy := false, phase := .idle, resynced := false, firstErr := none, txout := s.txout ++ w,
        timer := s.timeout, rxbuf := after, rspValid := true, rspIsResponse := true, rspAddr := t.rspAddr,
        rspCmd := t.rspCmd, rspLen := t.rspLen, rxpay := t.rxpay, scan := t.scan,
        result := if addr ≠ s.reqAddr then .addressMismatch else if cmd ≠ s.reqCmd then .commandMismatch else .ok }

/-- XFER neither reads nor writes WIRE and WIRE_LEN: with other contents of both it does the same and leaves them alone
(43_transport_session.md R190). -/
def Obligations.XferIgnoresWire : Prop :=
  ∀ (s t : State) (m : Memory) (n : Word16), exec .xfer s = .next t →
    exec .xfer { s with wire := m, wireLen := n } = .next { t with wire := m, wireLen := n }

/-! ## The timer -/

/-- A Tick counts TIMER down while the framer waits, and the one that brings it to 0 ends the operation with Timeout,
RSP_VALID = 0 and the unfinished candidate kept; in another phase a Tick changes nothing (43_transport_session.md R218,
R219). -/
def Obligations.TicksRunTheTimerDown : Prop :=
  (∀ s : State, handle .tick s = .next s.tick ∧ (s.phase ≠ .rx → s.tick = s)) ∧
  (∀ (s : State) (n : Nat), s.Inv → s.phase = .rx → n < s.timer.toNat →
    State.tick^[n] s = { s with timer := BitVec.ofNat 32 (s.timer.toNat - n) }) ∧
  (∀ s : State, s.Inv → s.phase = .rx → ∃ t, State.tick^[s.timer.toNat] s = t ∧
    t = { s with
      busy := false, phase := .idle, timer := 0, result := .timeout, rspValid := false, rspAddr := t.rspAddr,
      rspCmd := t.rspCmd, rspLen := t.rspLen, rspIsResponse := t.rspIsResponse, rxpay := t.rxpay,
      freeCount := t.freeCount, scan := t.scan })

/-- EVERY XFER ENDS provided ticks keep coming: whatever bytes come between them, after as many ticks as TIMER holds the
operation has ended (43_transport_session.md R222). The list of inputs is the model's (log entry 1). -/
def Obligations.EveryXferEndsWhileTicksCome : Prop :=
  ∀ (s : State) (events : List Input), s.Inv → s.phase = .rx →
    (∀ e ∈ events, e = .tick ∨ ∃ b, e = .rxByte b) → s.timer.toNat ≤ events.count .tick →
    ∃ k t, k ≤ events.length ∧ Host.Core.run core k { s with inputs := events } = .next t ∧ t.phase = .idle

/-! ## Received bytes -/

/-- A received byte of any class is appended to RXBUF while the block is not in the receive phase, and nothing else of
the block changes (20_memory.md R72; 10_state.md R41). The scan state is dead there: 0, the model's choice (log entry
6), as is that a wire byte row is the arrival of its byte (log entry 9). -/
def Obligations.BytesReceivedOutsideTheReceivePhase : Prop :=
  ∀ (s : State) (i : Instr) (b : Byte), channelOf i = some .wire ∨ channelOf i = some .escaped → encode i = [b] →
    s.phase ≠ .rx → exec i s = .next { s with rxbuf := s.rxbuf ++ [b], scan := Scan.zero }

/-- A byte that is no delimiter, received while RXBUF is empty in the receive phase, is discarded, without a retry and
without FIRST_ERR (43_transport_session.md R203). The dead scan state is 0, the model's choice (log entry 6),
as is that a wire byte row is the arrival of its byte (log entry 9). -/
def Obligations.HuntDiscardsBytes : Prop :=
  ∀ (s : State) (i : Instr) (b : Byte), channelOf i = some .wire ∨ channelOf i = some .escaped → encode i = [b] →
    b ≠ 0x7E → s.Waiting → s.rxbuf = [] → exec i s = .next { s with scan := Scan.zero }

/-- CTL11, CTL13 and LITERAL in an unfinished candidate are the inner bytes of their values, at either value of
CFG.ESC_LEGACY (30_encoding.md R105, R106, R107). That the scan runs as the bytes arrive, and `scan.inner` and
`scan.bad`, are the model's (log entries 6 and 7), as is that a row is the arrival of its byte (log entry 9). -/
def Obligations.LiteralClassesAreInnerBytes : Prop :=
  ∀ (s : State) (body : List Byte), s.Waiting → s.rxbuf = 0x7E :: body → s.scan.bad = false → s.scan.escPend = false →
    ∀ (i : Instr) (v : Byte), (i = .ctl11 ∧ v = 0x11) ∨ (i = .ctl13 ∧ v = 0x13) ∨ (i = .literal v ∧ i.wellFormed = true) →
      exec i s = .next { s with
        rxbuf := s.rxbuf ++ [v]
        scan := { s.scan with idx := s.scan.idx + 1, sum := s.scan.sum + v, inner := s.scan.inner ++ [v] } }

/-- ESC in an unfinished candidate contributes no inner byte and sets ESC_PEND (30_encoding.md R104). That the scan runs
as the bytes arrive is the model's (log entry 6), as is that a row is the arrival of its byte (log entry 9). -/
def Obligations.EscSetsEscPend : Prop :=
  ∀ (s : State) (body : List Byte), s.Waiting → s.rxbuf = 0x7E :: body → s.scan.bad = false → s.scan.escPend = false →
    exec .esc s = .next { s with
      rxbuf := s.rxbuf ++ [0x7D]
      scan := { s.scan with idx := s.scan.idx + 1, escPend := true } }

/-- E_5E and E_5D stand for 0x7E and 0x7D at either configuration, E_31 and E_33 for 0x11 and 0x13 when ESC_LEGACY = 1;
each clears ESC_PEND (30_encoding.md R108 to R111). At 0, E_31 and E_33, and at either, E_INVALID other than 0x7E, make
the scan of the frame fail (R110, R111, R112). That the scan runs as the bytes arrive, and `scan.inner` and `scan.bad`,
are the model's (log entries 6 and 7), as is that a row is the arrival of its byte (log entry 9). -/
def Obligations.EscapedClassesStandForTheirBytes : Prop :=
  ∀ (s : State) (body : List Byte), s.Waiting → s.rxbuf = 0x7E :: body → s.scan.bad = false → s.scan.escPend = true →
    (∀ (i : Instr) (e v : Byte),
      (i = .e5E ∧ e = 0x5E ∧ v = 0x7E) ∨ (i = .e5D ∧ e = 0x5D ∧ v = 0x7D) ∨
        (s.escLegacy = true ∧ ((i = .e31 ∧ e = 0x31 ∧ v = 0x11) ∨ (i = .e33 ∧ e = 0x33 ∧ v = 0x13))) →
      exec i s = .next { s with
        rxbuf := s.rxbuf ++ [e]
        scan := { s.scan with
          idx := s.scan.idx + 1, escPend := false, sum := s.scan.sum + v, inner := s.scan.inner ++ [v] } }) ∧
    (∀ (i : Instr) (e : Byte),
      (s.escLegacy = false ∧ ((i = .e31 ∧ e = 0x31) ∨ (i = .e33 ∧ e = 0x33))) ∨
        (i = .eInvalid e ∧ i.wellFormed = true ∧ e ≠ 0x7E) →
      exec i s = .next { s with
        rxbuf := s.rxbuf ++ [e]
        scan := { s.scan with idx := s.scan.idx + 1, escPend := false, bad := true } })

/-- A frame in which an ESC is followed by a byte that stands for nothing in the escape set fails with UnstuffingError,
whatever follows (30_encoding.md R112; 41_stuffing.md R145). -/
def Obligations.InvalidEscapeFailsTheFrame : Prop :=
  ∀ (x : Bool) (before u after : List Byte) (e : Byte), (0x7E : Byte) ∉ before ++ e :: after →
    unstuff x before = .ok u → inEscSet x (e ^^^ 0x20) = false →
    decodeFrame x (0x7E :: (before ++ 0x7D :: e :: after ++ [0x7E])) = .error .unstuffing

/-- FLAG opens a candidate in an empty RXBUF, and a second one right behind it takes its place: not a decode, not a
failure, no retry spent (43_transport_session.md R204, R207). The dead scan state is 0, the model's choice (log entry
6), as is that a wire byte row is the arrival of its byte (log entry 9). -/
def Obligations.FlagOpensACandidate : Prop :=
  ∀ s : State, s.Waiting → s.rxbuf = [] ∨ s.rxbuf = [0x7E] →
    exec .flag s = .next { s with rxbuf := [0x7E], scan := Scan.zero }

/-- FLAG behind body bytes closes the candidate; where it decodes, the frame is stored and consumed with its closing
delimiter, and the operation ends with AddressMismatch, CommandMismatch or OK, in that order (43_transport_session.md
R210, R211). That RXPAY holds no byte above the payload is the model's choice (log entry 5), as is that a wire byte row
is the arrival of its byte (log entry 9). -/
def Obligations.FlagClosesAnAcceptedCandidate : Prop :=
  ∀ (s : State) (body : List Byte) (f : Frame), s.Waiting → s.rxbuf = 0x7E :: body → body ≠ [] →
    decodeFrame s.escLegacy (0x7E :: (body ++ [0x7E])) = .ok f →
    ∃ t, exec .flag s = .next t ∧
      t.rspAddr = f.addr ∧ t.rspCmd = f.cmd ∧ t.rspLen.toNat = f.payload.length ∧
      (∀ i, t.rxpay.read i = f.payload[i]?) ∧
      t = { s with
        rxbuf := [], rspValid := true, rspIsResponse := true, rspAddr := t.rspAddr, rspCmd := t.rspCmd,
        rspLen := t.rspLen, rxpay := t.rxpay, busy := false, phase := .idle, scan := t.scan,
        result := if f.addr ≠ s.reqAddr then .addressMismatch
          else if f.cmd ≠ s.reqCmd then .commandMismatch else .ok }

/-- FLAG behind body bytes that do not decode: the first failure of the invocation sets RESYNCED and FIRST_ERR and the
closing delimiter stays as the next opening one (43_transport_session.md R212); the second is the outcome, with
RSP_VALID = 0 and the delimiter kept (R213). The dead scan state is 0, the model's choice (log entry 6), as is that a
wire byte row is the arrival of its byte (log entry 9). -/
def Obligations.FlagClosesAFailedCandidate : Prop :=
  ∀ (s : State) (body : List Byte) (e : DecodeErr), s.Waiting → s.rxbuf = 0x7E :: body → body ≠ [] →
    decodeFrame s.escLegacy (0x7E :: (body ++ [0x7E])) = .error e →
    (s.resynced = false →
      exec .flag s =
        .next { s with rxbuf := [0x7E], resynced := true, firstErr := some e, scan := Scan.zero }) ∧
    (s.resynced = true → ∃ t, exec .flag s = .next t ∧
      t = { s with
        rxbuf := [0x7E], result := e.code, busy := false, phase := .idle, rspValid := false, rspAddr := t.rspAddr,
        rspCmd := t.rspCmd, rspLen := t.rspLen, rspIsResponse := t.rspIsResponse, rxpay := t.rxpay,
        freeCount := t.freeCount, scan := t.scan })

/-- A delimiter behind a pending ESC closes the candidate, which fails with UnstuffingError (30_encoding.md R112;
41_stuffing.md R146; 43_transport_session.md R206): as the first failure of the invocation it is absorbed (R212), as the
second it is the outcome, with RSP_VALID = 0 and the delimiter kept (R213). THE MODEL'S OWN CHOICES: that such a 0x7E is
of class E_INVALID (DEDUCED, log entry 9), that the scan state agrees with RXBUF, and the dead scan state 0 (log entry
6). -/
def Obligations.DelimiterAfterEscFailsTheCandidate : Prop :=
  ∀ s : State, s.Inv → s.phase = .rx → s.scan.escPend = true →
    (s.resynced = false →
      exec (.eInvalid 0x7E) s =
        .next { s with rxbuf := [0x7E], resynced := true, firstErr := some .unstuffing, scan := Scan.zero }) ∧
    (s.resynced = true → ∃ t, exec (.eInvalid 0x7E) s = .next t ∧ s.FailedWith t .unstuffingError [0x7E])

/-- FRAME received, in every state of the receive phase in which the framer waits and outside that phase. With nothing,
or only an opening delimiter, buffered: with the right checksum it is stored and correlated; with another it is a failed
candidate, absorbed the first time and the outcome the second. Behind an unfinished candidate with body bytes its
opening delimiter closes that candidate (R206; 70_reset_and_hazards.md R292). Where the candidate decodes, the operation
ends with it and the rest of the FRAME stays in RXBUF. Where it fails as the second failure, that is the outcome and the
whole FRAME stays. Where it fails as the first, the kept delimiter opens the FRAME (S3 of 95_test_vectors.md), which is
stored and correlated, or is the second failure. While the block is not in the receive phase its wire bytes are buffered
(30_encoding.md R91, R92; 43_transport_session.md R207, R210 to R213; 20_memory.md R72). THE MODEL'S OWN CHOICES: RXPAY
holds no byte above the payload (log entry 5), the dead scan state is 0 (log entry 6), a FRAME is stuffed at the block's
own CFG.ESC_LEGACY (log entry 10). -/
def Obligations.ReceivedFrame : Prop :=
  ∀ (s : State) (addr cmd chk : Byte) (payload : List Byte), payload.length ≤ 255 →
    let right : Prop := chk.toNat = 255 - (addr.toNat + cmd.toNat + payload.length + byteSum payload) % 256
    let response : Frame := { addr := addr, cmd := cmd, payload := payload, isResponse := true }
    (s.Waiting → s.rxbuf = [] ∨ s.rxbuf = [0x7E] →
      (right → ∃ t, exec (.frame addr cmd payload chk) s = .next t ∧ s.Answered t response []) ∧
      (¬ right →
        (s.resynced = false →
          exec (.frame addr cmd payload chk) s =
            .next { s with rxbuf := [0x7E], resynced := true, firstErr := some .checksum, scan := Scan.zero }) ∧
        (s.resynced = true →
          ∃ t, exec (.frame addr cmd payload chk) s = .next t ∧ s.FailedWith t .checksumMismatch [0x7E]))) ∧
    (∀ body : List Byte, s.Waiting → s.rxbuf = 0x7E :: body → body ≠ [] →
      (∀ f, decodeFrame s.escLegacy (0x7E :: (body ++ [0x7E])) = .ok f →
        ∃ t, exec (.frame addr cmd payload chk) s = .next t ∧
          s.Answered t f (wireOf s.escLegacy addr cmd payload chk).tail) ∧
      (∀ e, decodeFrame s.escLegacy (0x7E :: (body ++ [0x7E])) = .error e →
        (s.resynced = true →
          ∃ t, exec (.frame addr cmd payload chk) s = .next t ∧
            s.FailedWith t e.code (wireOf s.escLegacy addr cmd payload chk)) ∧
        (s.resynced = false → right →
          ∃ t, exec (.frame addr cmd payload chk) s = .next t ∧
            { s with resynced := true, firstErr := some e }.Answered t response []) ∧
        (s.resynced = false → ¬ right →
          ∃ t, exec (.frame addr cmd payload chk) s = .next t ∧
            { s with resynced := true, firstErr := some e }.FailedWith t .checksumMismatch [0x7E]))) ∧
    (s.phase ≠ .rx →
      exec (.frame addr cmd payload chk) s =
        .next { s with rxbuf := s.rxbuf ++ wireOf s.escLegacy addr cmd payload chk, scan := Scan.zero })

/-- ONE damaged frame in front of a good one is survived, and its failure stays in FIRST_ERR; TWO make the invocation
fail with the failure of the second, although a good frame follows, which is left whole in RXBUF
(70_reset_and_hazards.md R292; 43_transport_session.md R207, R212, R213). A damaged frame is any body bytes, of any
number but none and WITH NO 0x7E AMONG THEM, that do not decode between two delimiters, whatever the failure; it may have
lost its own closing delimiter (`close` empty: a truncated frame, S3 of 95_test_vectors.md), and is then closed by the
delimiter that opens what follows it. A frame of which a body byte became 0x7E (42_frame_codec.md R180 case 2) is no such
frame: XFER sees the bytes on the two sides of that 0x7E as two candidates (R206), and where both fail the second clause
speaks of it. A frame that lost its opening delimiter is no candidate at all. That RXPAY holds no byte above the payload is the model's choice (log entry 5). -/
def Obligations.OneDamagedFrameIsSurvivedTwoAreNot : Prop :=
  ∀ (s : State) (body close q good : List Byte) (e : DecodeErr),
    s.Waiting → s.rxbuf = [] → s.resynced = false →
    body ≠ [] → (0x7E : Byte) ∉ body → decodeFrame s.escLegacy (0x7E :: (body ++ [0x7E])) = .error e →
    close = [] ∨ close = [0x7E] → encodeFrame s.escLegacy s.reqAddr s.reqCmd q = .ok good →
    ({ s with resynced := true, firstErr := some e }.Answered (s.rxBytes (0x7E :: (body ++ close) ++ good))
        { addr := s.reqAddr, cmd := s.reqCmd, payload := q, isResponse := true } [] ∧
      (s.rxBytes (0x7E :: (body ++ close) ++ good)).result = .ok) ∧
    (∀ (body' close' : List Byte) (e' : DecodeErr),
      body' ≠ [] → (0x7E : Byte) ∉ body' → decodeFrame s.escLegacy (0x7E :: (body' ++ [0x7E])) = .error e' →
      close' = [] ∨ close' = [0x7E] →
      { s with resynced := true, firstErr := some e }.FailedWith
        (s.rxBytes (0x7E :: (body ++ close) ++ 0x7E :: (body' ++ close') ++ good)) e'.code (close' ++ good))

/-- INDEPENDENCE OF DELIVERY GROUPING: bytes delivered in one `read` do what the same bytes do delivered one at a time
(43_transport_session.md R224; 20_memory.md R70). The list of inputs and that a delivery is one step are the model's
(log entries 1 and 22). -/
def Obligations.DeliveryGroupingIsInvisible : Prop :=
  ∀ (s : State) (bytes : List Byte) (rest : List Input),
    Host.Core.run core 1 { s with inputs := .rx bytes :: rest } =
      Host.Core.run core bytes.length { s with inputs := bytes.map Input.rxByte ++ rest }

/-! ## The whole machine -/

/-- The reset state meets the invariant; the values at reset are 10_state.md R48's. What State.Inv says of a dead scan
state is the model's (log entry 6). -/
def Obligations.ResetMeetsTheInvariant : Prop := State.reset.Inv

/-- THE INVARIANT IS KEPT BY EVERY STEP, whatever the input (Safety.lean says it; 10_state.md R32, R35, R36;
20_memory.md R60; 43_transport_session.md R191, R208; 60_exceptions.md R252). THE MODEL'S OWN CHOICE: the clause
scan_ok, that the scan state is 0 where it is dead and live across events for the unfinished candidate, which
10_state.md R44 does not say (DESIGN CHOICE, log entry 6). -/
def Obligations.EveryStepKeepsTheInvariant : Prop :=
  ∀ s t : State, s.Inv → step s = .next t → t.Inv

/-- PHASE moves only as the table says: TX is never seen between events, RX is entered by a write of CTRL.OP = 0x03
alone, and left by the end of the operation, never with PayloadTooLarge, or by reset (43_transport_session.md R191).
That a 32-bit value written to CTRL is cut to its 8 bits is the model's (log entry 12). -/
def Obligations.PhaseMovesOnlyAsStated : Prop :=
  ∀ s t : State, s.Inv → step s = .next t →
    t.phase ≠ .tx ∧
    (s.phase = .idle → t.phase = .rx →
      ∃ v rest, s.inputs = .writeReg 0x00 v :: rest ∧ (v.setWidth 8 : Byte) = 0x03) ∧
    (s.phase = .rx → t.phase = .idle →
      (∃ rest, s.inputs = .reset :: rest) ∨ (t.busy = false ∧ t.result ≠ .payloadTooLarge))

/-- TXOUT grows only by one whole encoded request for each write of CTRL.OP = 0x03 that starts an XFER, and is emptied by
reset alone; a decode failure, a resynchronisation, a mismatch or a timeout never sends (10_state.md R42;
43_transport_session.md R195). That a 32-bit value written to CTRL is cut to its 8 bits is the model's (log entry 12). -/
def Obligations.OnlyTheStartOfXferTransmits : Prop :=
  ∀ s t : State, step s = .next t →
    t.txout = s.txout ∨
    (∃ rest, s.inputs = .reset :: rest ∧ t.txout = []) ∨
    (∃ v rest payload w, s.inputs = .writeReg 0x00 v :: rest ∧ (v.setWidth 8 : Byte) = 0x03 ∧ s.busy = false ∧
      payload.length = s.reqPlen.toNat ∧ (∀ i, i < payload.length → s.txpay.read i = payload[i]?) ∧
      encodeFrame s.escLegacy s.reqAddr s.reqCmd payload = .ok w ∧ t.txout = s.txout ++ w)

/-- While BUSY = 1 RESULT still holds the code of the previous operation: a step after which the block is busy has not
written it (10_state.md R34). -/
def Obligations.ResultIsHeldWhileBusy : Prop :=
  ∀ s t : State, step s = .next t → t.busy = true → t.result = s.result

/-- Whichever step ends an XFER, one of its receive phase or the one that starts it, RSP_VALID is 1 afterwards exactly
after OK, AddressMismatch and CommandMismatch (60_exceptions.md R252). For an XFER that finds damaged frames in RXBUF
and ends in the step that starts it: after one buffered failure and then a good frame it is 1, after two buffered
failures 0, whatever TIMEOUT is (43_transport_session.md R212, R213, R220). THE MODEL'S OWN CHOICES: a 32-bit value
written to CTRL is cut to its 8 bits (log entry 12), RXPAY holds no byte above the payload (log entry 5). -/
def Obligations.ResponseIsValidExactlyAfterADecodedFrame : Prop :=
  (∀ s t : State, s.Inv → step s = .next t → t.phase = .idle →
    s.phase = .rx ∨ (∃ v rest, s.inputs = .writeReg 0x00 v :: rest ∧ (v.setWidth 8 : Byte) = 0x03) →
    (∃ rest, s.inputs = .reset :: rest) ∨
      (t.rspValid = true ↔ t.result = .ok ∨ t.result = .addressMismatch ∨ t.result = .commandMismatch)) ∧
  (∀ (s : State) (payload w body close : List Byte) (e : DecodeErr),
    s.busy = false → s.reqPlen.toNat ≤ 255 →
    payload.length = s.reqPlen.toNat → (∀ i, i < payload.length → s.txpay.read i = payload[i]?) →
    encodeFrame s.escLegacy s.reqAddr s.reqCmd payload = .ok w →
    body ≠ [] → (0x7E : Byte) ∉ body → decodeFrame s.escLegacy (0x7E :: (body ++ [0x7E])) = .error e →
    close = [] ∨ close = [0x7E] →
    (∀ (addr cmd : Byte) (q good after : List Byte), encodeFrame s.escLegacy addr cmd q = .ok good →
      s.rxbuf = 0x7E :: (body ++ close) ++ good ++ after →
      ∃ t, exec .xfer s = .next t ∧
        { s with resynced := true, firstErr := some e, txout := s.txout ++ w, timer := s.timeout }.Answered t
          { addr := addr, cmd := cmd, payload := q, isResponse := true } after) ∧
    (∀ (body' after : List Byte) (e' : DecodeErr), body' ≠ [] → (0x7E : Byte) ∉ body' →
      decodeFrame s.escLegacy (0x7E :: (body' ++ [0x7E])) = .error e' →
      s.rxbuf = 0x7E :: (body ++ close) ++ 0x7E :: (body' ++ 0x7E :: after) →
      ∃ t, exec .xfer s = .next t ∧
        { s with resynced := true, firstErr := some e, txout := s.txout ++ w, timer := s.timeout }.FailedWith t e'.code
          (0x7E :: after)))

/-- The block cannot refuse a received byte, a tick or a reset, in any state (20_memory.md R72; 43_transport_session.md
R218; 70_reset_and_hazards.md R280). The list of inputs and that a delivery is one step are the model's (log entries 1
and 22). -/
def Obligations.TheEnvironmentIsNeverRefused : Prop :=
  ∀ (s : State) (e : Input) (rest : List Input), s.inputs = e :: rest →
    (∃ b, e = .rxByte b) ∨ (∃ bytes, e = .rx bytes) ∨ e = .tick ∨ e = .reset → s.GoesOn
end

