-- ==== Sys2Proof/Laws/Memory.lean ====
section
/-! SUPPORT. The byte buffers: a read after a write, the canonical form under every operation, and what the whole-list
operations hold. -/

namespace Sys2Proof.Machine

namespace Memory

theorem read_write (m : Memory) (i j : Nat) (v : Byte) :
    (Memory.write m i v).read j = if j = i then some v else m.read j := by
  induction m with
  | nil =>
    simp only [Memory.write, Memory.read]
    by_cases h : i = j <;> simp [h, eq_comm]
  | cons c rest ih =>
    obtain ⟨a, w⟩ := c
    simp only [Memory.write]
    split
    · simp only [Memory.read]
      by_cases h : i = j
      · simp [h]
      · simp [h, Ne.symm h]
    · split
      · subst_vars
        simp only [Memory.read]
        by_cases h : a = j
        · simp [h]
        · simp [h, Ne.symm h]
      · simp only [Memory.read]
        by_cases h : a = j
        · subst h
          have : ¬ a = i := by omega
          simp [this]
        · simp [h, ih]

theorem read_write_same (m : Memory) (i : Nat) (v : Byte) : (Memory.write m i v).read i = some v := by
  simp [read_write]

theorem read_write_other (m : Memory) (i j : Nat) (v : Byte) (h : j ≠ i) :
    (Memory.write m i v).read j = m.read j := by
  simp [read_write, h]

theorem risingFrom_mono {lo lo' : Nat} {m : Memory} (h : lo' ≤ lo) (hm : Memory.risingFrom lo m = true) :
    Memory.risingFrom lo' m = true := by
  cases m with
  | nil => rfl
  | cons c rest =>
    obtain ⟨a, w⟩ := c
    simp only [Memory.risingFrom, Bool.and_eq_true, decide_eq_true_eq] at *
    exact ⟨by omega, hm.2⟩

theorem risingFrom_write {lo i : Nat} {m : Memory} {v : Byte} (hi : lo ≤ i)
    (hm : Memory.risingFrom lo m = true) : Memory.risingFrom lo (m.write i v) = true := by
  induction m generalizing lo with
  | nil => simp [Memory.write, Memory.risingFrom, hi]
  | cons c rest ih =>
    obtain ⟨a, w⟩ := c
    simp only [Memory.risingFrom, Bool.and_eq_true, decide_eq_true_eq] at hm
    simp only [Memory.write]
    split
    · rename_i hlt
      simp only [Memory.risingFrom, Bool.and_eq_true, decide_eq_true_eq]
      exact ⟨hi, by omega, hm.2⟩
    · split
      · subst_vars
        simp only [Memory.risingFrom, Bool.and_eq_true, decide_eq_true_eq]
        exact ⟨hi, hm.2⟩
      · simp only [Memory.risingFrom, Bool.and_eq_true, decide_eq_true_eq]
        exact ⟨hm.1, ih (by omega) hm.2⟩

/-- A write keeps the canonical form. -/
theorem wf_write {m : Memory} {i : Nat} {v : Byte} (hm : m.wf = true) : (Memory.write m i v).wf = true :=
  risingFrom_write (Nat.zero_le i) hm

/-- A write inside the index range stays inside it. -/
theorem below_write {n i : Nat} {m : Memory} {v : Byte} (hi : i < n) (hm : m.below n = true) :
    (Memory.write m i v).below n = true := by
  induction m with
  | nil => simp [Memory.write, Memory.below, hi]
  | cons c rest ih =>
    obtain ⟨a, w⟩ := c
    simp only [Memory.below, List.all_cons, Bool.and_eq_true, decide_eq_true_eq] at hm ih
    simp only [Memory.write]
    split
    · simpa [Memory.below, hi] using hm
    · split
      · simpa [Memory.below, hi] using hm.2
      · simpa [Memory.below, hm.1] using ih hm.2

theorem risingFrom_ofListFrom (i : Nat) (l : List Byte) : Memory.risingFrom i (Memory.ofListFrom i l) = true := by
  induction l generalizing i with
  | nil => rfl
  | cons b rest ih => simp [Memory.ofListFrom, Memory.risingFrom, ih]

/-- A buffer made of a list is in canonical form. -/
theorem wf_ofList (l : List Byte) : (Memory.ofList l).wf = true := risingFrom_ofListFrom 0 l

theorem below_ofListFrom (n i : Nat) (l : List Byte) (h : i + l.length ≤ n) :
    (Memory.ofListFrom i l).below n = true := by
  induction l generalizing i with
  | nil => rfl
  | cons b rest ih =>
    simp only [List.length_cons] at h
    have := ih (i + 1) (by omega)
    simp only [Memory.below] at this
    simp only [Memory.ofListFrom, Memory.below, List.all_cons, this, Bool.and_true, decide_eq_true_eq]
    omega

theorem below_ofList {n : Nat} {l : List Byte} (h : l.length ≤ n) : (Memory.ofList l).below n = true :=
  below_ofListFrom n 0 l (by omega)

theorem read_ofListFrom (l : List Byte) (i j : Nat) :
    (Memory.ofListFrom i l).read j = if i ≤ j then l[j - i]? else none := by
  induction l generalizing i with
  | nil => simp [Memory.ofListFrom, Memory.read]
  | cons b rest ih =>
    simp only [Memory.ofListFrom, Memory.read, ih]
    by_cases h : i = j
    · subst h; simp
    · by_cases hle : i ≤ j
      · have : j - i = (j - (i + 1)) + 1 := by omega
        simp [h, hle, this, show i + 1 ≤ j by omega]
      · simp [h, hle, show ¬ i + 1 ≤ j by omega]

/-- A buffer made of a list reads as the list. -/
@[simp] theorem read_ofList (l : List Byte) (j : Nat) : (Memory.ofList l).read j = l[j]? := by
  simp [Memory.ofList, read_ofListFrom]

/-- What a read of several bytes is: each byte read singly. -/
theorem readFrom_eq_some {m : Memory} {i n : Nat} {l : List Byte} :
    m.readFrom i n = some l ↔ l.length = n ∧ ∀ k, k < n → m.read (i + k) = l[k]? := by
  induction n generalizing i l with
  | zero =>
    simp only [Memory.readFrom]
    constructor
    · rintro ⟨rfl⟩; simp
    · rintro ⟨h, -⟩; rw [List.length_eq_zero_iff.mp h]
  | succ n ih =>
    simp only [Memory.readFrom]
    constructor
    · intro h
      split at h
      · rename_i b bs hb hbs
        cases h
        obtain ⟨hl, hr⟩ := ih.mp hbs
        refine ⟨by simp [hl], fun k hk => ?_⟩
        cases k with
        | zero => simpa using hb
        | succ k => simpa [Nat.add_assoc, Nat.add_comm 1] using hr k (by omega)
      · cases h
    · rintro ⟨hl, hr⟩
      cases l with
      | nil => simp at hl
      | cons b bs =>
        have hb : m.read i = some b := by simpa using hr 0 (by omega)
        have hbs : m.readFrom (i + 1) n = some bs := by
          refine ih.mpr ⟨by simpa using hl, fun k hk => ?_⟩
          simpa [Nat.add_assoc, Nat.add_comm 1] using hr (k + 1) (by omega)
        simp [hb, hbs]

/-- A read of several bytes fails exactly where one of them holds no value. -/
theorem readFrom_eq_none {m : Memory} {i n : Nat} :
    m.readFrom i n = none ↔ ∃ k, k < n ∧ m.read (i + k) = none := by
  induction n generalizing i with
  | zero => simp [Memory.readFrom]
  | succ n ih =>
    simp only [Memory.readFrom]
    constructor
    · intro h
      cases hb : m.read i with
      | none => exact ⟨0, by omega, by simpa using hb⟩
      | some b =>
        cases hbs : m.readFrom (i + 1) n with
        | none =>
          obtain ⟨k, hk, hr⟩ := ih.mp hbs
          exact ⟨k + 1, by omega, by rw [← hr]; congr 1; omega⟩
        | some bs => simp [hb, hbs] at h
    · rintro ⟨k, hk, hr⟩
      cases k with
      | zero => simp at hr; simp [hr]
      | succ k =>
        have : m.readFrom (i + 1) n = none := ih.mpr ⟨k, by omega, by rw [← hr]; congr 1; omega⟩
        cases m.read i <;> simp [this]

theorem readFrom_ofList (l : List Byte) : (Memory.ofList l).readFrom 0 l.length = some l := by
  rw [readFrom_eq_some]
  simp

end Memory

/-- Reset lists no byte, in canonical form. -/
theorem State.reset_buffers_wf :
    State.reset.txpay.wf = true ∧ State.reset.rxpay.wf = true ∧ State.reset.wire.wf = true := ⟨rfl, rfl, rfl⟩

end Sys2Proof.Machine
end

