-- ==== Sys2Proof/Laws/State.lean ====
section
/-! SUPPORT. Each named update of State, field by field: one lemma per field, so that no later proof unfolds a record
update. -/

namespace Sys2Proof.Machine

/-! ### txWrite -/

section txWrite
variable (s : State) (w : List Byte)

@[simp] theorem State.txWrite_busy : (s.txWrite w).busy = s.busy := rfl
@[simp] theorem State.txWrite_phase : (s.txWrite w).phase = s.phase := rfl
@[simp] theorem State.txWrite_resynced : (s.txWrite w).resynced = s.resynced := rfl
@[simp] theorem State.txWrite_rspValid : (s.txWrite w).rspValid = s.rspValid := rfl
@[simp] theorem State.txWrite_escLegacy : (s.txWrite w).escLegacy = s.escLegacy := rfl
@[simp] theorem State.txWrite_result : (s.txWrite w).result = s.result := rfl
@[simp] theorem State.txWrite_firstErr : (s.txWrite w).firstErr = s.firstErr := rfl
@[simp] theorem State.txWrite_reqAddr : (s.txWrite w).reqAddr = s.reqAddr := rfl
@[simp] theorem State.txWrite_reqCmd : (s.txWrite w).reqCmd = s.reqCmd := rfl
@[simp] theorem State.txWrite_reqPlen : (s.txWrite w).reqPlen = s.reqPlen := rfl
@[simp] theorem State.txWrite_timeout : (s.txWrite w).timeout = s.timeout := rfl
@[simp] theorem State.txWrite_wireLen : (s.txWrite w).wireLen = s.wireLen := rfl
@[simp] theorem State.txWrite_rspAddr : (s.txWrite w).rspAddr = s.rspAddr := rfl
@[simp] theorem State.txWrite_rspCmd : (s.txWrite w).rspCmd = s.rspCmd := rfl
@[simp] theorem State.txWrite_rspLen : (s.txWrite w).rspLen = s.rspLen := rfl
@[simp] theorem State.txWrite_rspIsResponse : (s.txWrite w).rspIsResponse = s.rspIsResponse := rfl
@[simp] theorem State.txWrite_txpay : (s.txWrite w).txpay = s.txpay := rfl
@[simp] theorem State.txWrite_rxpay : (s.txWrite w).rxpay = s.rxpay := rfl
@[simp] theorem State.txWrite_wire : (s.txWrite w).wire = s.wire := rfl
@[simp] theorem State.txWrite_rxbuf : (s.txWrite w).rxbuf = s.rxbuf := rfl
@[simp] theorem State.txWrite_txout : (s.txWrite w).txout = s.txout ++ w := rfl
@[simp] theorem State.txWrite_timer : (s.txWrite w).timer = s.timer := rfl
@[simp] theorem State.txWrite_scan : (s.txWrite w).scan = s.scan := rfl
@[simp] theorem State.txWrite_inputs : (s.txWrite w).inputs = s.inputs := rfl
@[simp] theorem State.txWrite_hostData : (s.txWrite w).hostData = s.hostData := rfl
@[simp] theorem State.txWrite_unitOut : (s.txWrite w).unitOut = s.unitOut := rfl
@[simp] theorem State.txWrite_freeCount : (s.txWrite w).freeCount = s.freeCount := rfl

end txWrite

/-! ### loadTimer -/

section loadTimer
variable (s : State) 

@[simp] theorem State.loadTimer_busy : s.loadTimer.busy = s.busy := rfl
@[simp] theorem State.loadTimer_phase : s.loadTimer.phase = s.phase := rfl
@[simp] theorem State.loadTimer_resynced : s.loadTimer.resynced = s.resynced := rfl
@[simp] theorem State.loadTimer_rspValid : s.loadTimer.rspValid = s.rspValid := rfl
@[simp] theorem State.loadTimer_escLegacy : s.loadTimer.escLegacy = s.escLegacy := rfl
@[simp] theorem State.loadTimer_result : s.loadTimer.result = s.result := rfl
@[simp] theorem State.loadTimer_firstErr : s.loadTimer.firstErr = s.firstErr := rfl
@[simp] theorem State.loadTimer_reqAddr : s.loadTimer.reqAddr = s.reqAddr := rfl
@[simp] theorem State.loadTimer_reqCmd : s.loadTimer.reqCmd = s.reqCmd := rfl
@[simp] theorem State.loadTimer_reqPlen : s.loadTimer.reqPlen = s.reqPlen := rfl
@[simp] theorem State.loadTimer_timeout : s.loadTimer.timeout = s.timeout := rfl
@[simp] theorem State.loadTimer_wireLen : s.loadTimer.wireLen = s.wireLen := rfl
@[simp] theorem State.loadTimer_rspAddr : s.loadTimer.rspAddr = s.rspAddr := rfl
@[simp] theorem State.loadTimer_rspCmd : s.loadTimer.rspCmd = s.rspCmd := rfl
@[simp] theorem State.loadTimer_rspLen : s.loadTimer.rspLen = s.rspLen := rfl
@[simp] theorem State.loadTimer_rspIsResponse : s.loadTimer.rspIsResponse = s.rspIsResponse := rfl
@[simp] theorem State.loadTimer_txpay : s.loadTimer.txpay = s.txpay := rfl
@[simp] theorem State.loadTimer_rxpay : s.loadTimer.rxpay = s.rxpay := rfl
@[simp] theorem State.loadTimer_wire : s.loadTimer.wire = s.wire := rfl
@[simp] theorem State.loadTimer_rxbuf : s.loadTimer.rxbuf = s.rxbuf := rfl
@[simp] theorem State.loadTimer_txout : s.loadTimer.txout = s.txout := rfl
@[simp] theorem State.loadTimer_timer : s.loadTimer.timer = s.timeout := rfl
@[simp] theorem State.loadTimer_scan : s.loadTimer.scan = s.scan := rfl
@[simp] theorem State.loadTimer_inputs : s.loadTimer.inputs = s.inputs := rfl
@[simp] theorem State.loadTimer_hostData : s.loadTimer.hostData = s.hostData := rfl
@[simp] theorem State.loadTimer_unitOut : s.loadTimer.unitOut = s.unitOut := rfl
@[simp] theorem State.loadTimer_freeCount : s.loadTimer.freeCount = s.freeCount := rfl

end loadTimer

/-! ### countDown -/

section countDown
variable (s : State) 

@[simp] theorem State.countDown_busy : s.countDown.busy = s.busy := rfl
@[simp] theorem State.countDown_phase : s.countDown.phase = s.phase := rfl
@[simp] theorem State.countDown_resynced : s.countDown.resynced = s.resynced := rfl
@[simp] theorem State.countDown_rspValid : s.countDown.rspValid = s.rspValid := rfl
@[simp] theorem State.countDown_escLegacy : s.countDown.escLegacy = s.escLegacy := rfl
@[simp] theorem State.countDown_result : s.countDown.result = s.result := rfl
@[simp] theorem State.countDown_firstErr : s.countDown.firstErr = s.firstErr := rfl
@[simp] theorem State.countDown_reqAddr : s.countDown.reqAddr = s.reqAddr := rfl
@[simp] theorem State.countDown_reqCmd : s.countDown.reqCmd = s.reqCmd := rfl
@[simp] theorem State.countDown_reqPlen : s.countDown.reqPlen = s.reqPlen := rfl
@[simp] theorem State.countDown_timeout : s.countDown.timeout = s.timeout := rfl
@[simp] theorem State.countDown_wireLen : s.countDown.wireLen = s.wireLen := rfl
@[simp] theorem State.countDown_rspAddr : s.countDown.rspAddr = s.rspAddr := rfl
@[simp] theorem State.countDown_rspCmd : s.countDown.rspCmd = s.rspCmd := rfl
@[simp] theorem State.countDown_rspLen : s.countDown.rspLen = s.rspLen := rfl
@[simp] theorem State.countDown_rspIsResponse : s.countDown.rspIsResponse = s.rspIsResponse := rfl
@[simp] theorem State.countDown_txpay : s.countDown.txpay = s.txpay := rfl
@[simp] theorem State.countDown_rxpay : s.countDown.rxpay = s.rxpay := rfl
@[simp] theorem State.countDown_wire : s.countDown.wire = s.wire := rfl
@[simp] theorem State.countDown_rxbuf : s.countDown.rxbuf = s.rxbuf := rfl
@[simp] theorem State.countDown_txout : s.countDown.txout = s.txout := rfl
@[simp] theorem State.countDown_timer : s.countDown.timer = if s.timer = 0 then 0 else s.timer - 1 := rfl
@[simp] theorem State.countDown_scan : s.countDown.scan = s.scan := rfl
@[simp] theorem State.countDown_inputs : s.countDown.inputs = s.inputs := rfl
@[simp] theorem State.countDown_hostData : s.countDown.hostData = s.hostData := rfl
@[simp] theorem State.countDown_unitOut : s.countDown.unitOut = s.unitOut := rfl
@[simp] theorem State.countDown_freeCount : s.countDown.freeCount = s.freeCount := rfl

end countDown

/-! ### startOp -/

section startOp
variable (s : State) 

@[simp] theorem State.startOp_busy : s.startOp.busy = true := rfl
@[simp] theorem State.startOp_phase : s.startOp.phase = s.phase := rfl
@[simp] theorem State.startOp_resynced : s.startOp.resynced = s.resynced := rfl
@[simp] theorem State.startOp_rspValid : s.startOp.rspValid = s.rspValid := rfl
@[simp] theorem State.startOp_escLegacy : s.startOp.escLegacy = s.escLegacy := rfl
@[simp] theorem State.startOp_result : s.startOp.result = s.result := rfl
@[simp] theorem State.startOp_firstErr : s.startOp.firstErr = s.firstErr := rfl
@[simp] theorem State.startOp_reqAddr : s.startOp.reqAddr = s.reqAddr := rfl
@[simp] theorem State.startOp_reqCmd : s.startOp.reqCmd = s.reqCmd := rfl
@[simp] theorem State.startOp_reqPlen : s.startOp.reqPlen = s.reqPlen := rfl
@[simp] theorem State.startOp_timeout : s.startOp.timeout = s.timeout := rfl
@[simp] theorem State.startOp_wireLen : s.startOp.wireLen = s.wireLen := rfl
@[simp] theorem State.startOp_rspAddr : s.startOp.rspAddr = s.rspAddr := rfl
@[simp] theorem State.startOp_rspCmd : s.startOp.rspCmd = s.rspCmd := rfl
@[simp] theorem State.startOp_rspLen : s.startOp.rspLen = s.rspLen := rfl
@[simp] theorem State.startOp_rspIsResponse : s.startOp.rspIsResponse = s.rspIsResponse := rfl
@[simp] theorem State.startOp_txpay : s.startOp.txpay = s.txpay := rfl
@[simp] theorem State.startOp_rxpay : s.startOp.rxpay = s.rxpay := rfl
@[simp] theorem State.startOp_wire : s.startOp.wire = s.wire := rfl
@[simp] theorem State.startOp_rxbuf : s.startOp.rxbuf = s.rxbuf := rfl
@[simp] theorem State.startOp_txout : s.startOp.txout = s.txout := rfl
@[simp] theorem State.startOp_timer : s.startOp.timer = s.timer := rfl
@[simp] theorem State.startOp_scan : s.startOp.scan = s.scan := rfl
@[simp] theorem State.startOp_inputs : s.startOp.inputs = s.inputs := rfl
@[simp] theorem State.startOp_hostData : s.startOp.hostData = s.hostData := rfl
@[simp] theorem State.startOp_unitOut : s.startOp.unitOut = s.unitOut := rfl
@[simp] theorem State.startOp_freeCount : s.startOp.freeCount = s.freeCount := rfl

end startOp

/-! ### finish -/

section finish
variable (s : State) (c : Code)

@[simp] theorem State.finish_busy : (s.finish c).busy = false := rfl
@[simp] theorem State.finish_phase : (s.finish c).phase = .idle := rfl
@[simp] theorem State.finish_resynced : (s.finish c).resynced = s.resynced := rfl
@[simp] theorem State.finish_rspValid : (s.finish c).rspValid = s.rspValid := rfl
@[simp] theorem State.finish_escLegacy : (s.finish c).escLegacy = s.escLegacy := rfl
@[simp] theorem State.finish_result : (s.finish c).result = c := rfl
@[simp] theorem State.finish_firstErr : (s.finish c).firstErr = s.firstErr := rfl
@[simp] theorem State.finish_reqAddr : (s.finish c).reqAddr = s.reqAddr := rfl
@[simp] theorem State.finish_reqCmd : (s.finish c).reqCmd = s.reqCmd := rfl
@[simp] theorem State.finish_reqPlen : (s.finish c).reqPlen = s.reqPlen := rfl
@[simp] theorem State.finish_timeout : (s.finish c).timeout = s.timeout := rfl
@[simp] theorem State.finish_wireLen : (s.finish c).wireLen = s.wireLen := rfl
@[simp] theorem State.finish_rspAddr : (s.finish c).rspAddr = s.rspAddr := rfl
@[simp] theorem State.finish_rspCmd : (s.finish c).rspCmd = s.rspCmd := rfl
@[simp] theorem State.finish_rspLen : (s.finish c).rspLen = s.rspLen := rfl
@[simp] theorem State.finish_rspIsResponse : (s.finish c).rspIsResponse = s.rspIsResponse := rfl
@[simp] theorem State.finish_txpay : (s.finish c).txpay = s.txpay := rfl
@[simp] theorem State.finish_rxpay : (s.finish c).rxpay = s.rxpay := rfl
@[simp] theorem State.finish_wire : (s.finish c).wire = s.wire := rfl
@[simp] theorem State.finish_rxbuf : (s.finish c).rxbuf = s.rxbuf := rfl
@[simp] theorem State.finish_txout : (s.finish c).txout = s.txout := rfl
@[simp] theorem State.finish_timer : (s.finish c).timer = s.timer := rfl
@[simp] theorem State.finish_scan : (s.finish c).scan = s.scan := rfl
@[simp] theorem State.finish_inputs : (s.finish c).inputs = s.inputs := rfl
@[simp] theorem State.finish_hostData : (s.finish c).hostData = s.hostData := rfl
@[simp] theorem State.finish_unitOut : (s.finish c).unitOut = s.unitOut := rfl
@[simp] theorem State.finish_freeCount : (s.finish c).freeCount = s.freeCount := rfl

end finish

/-! ### invalidateRsp -/

section invalidateRsp
variable (s : State) 

@[simp] theorem State.invalidateRsp_busy : s.invalidateRsp.busy = s.busy := rfl
@[simp] theorem State.invalidateRsp_phase : s.invalidateRsp.phase = s.phase := rfl
@[simp] theorem State.invalidateRsp_resynced : s.invalidateRsp.resynced = s.resynced := rfl
@[simp] theorem State.invalidateRsp_rspValid : s.invalidateRsp.rspValid = false := rfl
@[simp] theorem State.invalidateRsp_escLegacy : s.invalidateRsp.escLegacy = s.escLegacy := rfl
@[simp] theorem State.invalidateRsp_result : s.invalidateRsp.result = s.result := rfl
@[simp] theorem State.invalidateRsp_firstErr : s.invalidateRsp.firstErr = s.firstErr := rfl
@[simp] theorem State.invalidateRsp_reqAddr : s.invalidateRsp.reqAddr = s.reqAddr := rfl
@[simp] theorem State.invalidateRsp_reqCmd : s.invalidateRsp.reqCmd = s.reqCmd := rfl
@[simp] theorem State.invalidateRsp_reqPlen : s.invalidateRsp.reqPlen = s.reqPlen := rfl
@[simp] theorem State.invalidateRsp_timeout : s.invalidateRsp.timeout = s.timeout := rfl
@[simp] theorem State.invalidateRsp_wireLen : s.invalidateRsp.wireLen = s.wireLen := rfl
@[simp] theorem State.invalidateRsp_rspAddr : s.invalidateRsp.rspAddr = Config.freeByte s.freeCount := rfl
@[simp] theorem State.invalidateRsp_rspCmd : s.invalidateRsp.rspCmd = Config.freeByte (s.freeCount + 1) := rfl
@[simp] theorem State.invalidateRsp_rspLen : s.invalidateRsp.rspLen = Config.freeByte (s.freeCount + 2) := rfl
@[simp] theorem State.invalidateRsp_rspIsResponse : s.invalidateRsp.rspIsResponse = (Config.freeByte (s.freeCount + 3)).getLsbD 0 := rfl
@[simp] theorem State.invalidateRsp_txpay : s.invalidateRsp.txpay = s.txpay := rfl
@[simp] theorem State.invalidateRsp_rxpay : s.invalidateRsp.rxpay = [] := rfl
@[simp] theorem State.invalidateRsp_wire : s.invalidateRsp.wire = s.wire := rfl
@[simp] theorem State.invalidateRsp_rxbuf : s.invalidateRsp.rxbuf = s.rxbuf := rfl
@[simp] theorem State.invalidateRsp_txout : s.invalidateRsp.txout = s.txout := rfl
@[simp] theorem State.invalidateRsp_timer : s.invalidateRsp.timer = s.timer := rfl
@[simp] theorem State.invalidateRsp_scan : s.invalidateRsp.scan = s.scan := rfl
@[simp] theorem State.invalidateRsp_inputs : s.invalidateRsp.inputs = s.inputs := rfl
@[simp] theorem State.invalidateRsp_hostData : s.invalidateRsp.hostData = s.hostData := rfl
@[simp] theorem State.invalidateRsp_unitOut : s.invalidateRsp.unitOut = s.unitOut := rfl
@[simp] theorem State.invalidateRsp_freeCount : s.invalidateRsp.freeCount = s.freeCount + 4 := rfl

end invalidateRsp

/-! ### storeFrame -/

section storeFrame
variable (s : State) (f : Frame)

@[simp] theorem State.storeFrame_busy : (s.storeFrame f).busy = s.busy := rfl
@[simp] theorem State.storeFrame_phase : (s.storeFrame f).phase = s.phase := rfl
@[simp] theorem State.storeFrame_resynced : (s.storeFrame f).resynced = s.resynced := rfl
@[simp] theorem State.storeFrame_rspValid : (s.storeFrame f).rspValid = true := rfl
@[simp] theorem State.storeFrame_escLegacy : (s.storeFrame f).escLegacy = s.escLegacy := rfl
@[simp] theorem State.storeFrame_result : (s.storeFrame f).result = s.result := rfl
@[simp] theorem State.storeFrame_firstErr : (s.storeFrame f).firstErr = s.firstErr := rfl
@[simp] theorem State.storeFrame_reqAddr : (s.storeFrame f).reqAddr = s.reqAddr := rfl
@[simp] theorem State.storeFrame_reqCmd : (s.storeFrame f).reqCmd = s.reqCmd := rfl
@[simp] theorem State.storeFrame_reqPlen : (s.storeFrame f).reqPlen = s.reqPlen := rfl
@[simp] theorem State.storeFrame_timeout : (s.storeFrame f).timeout = s.timeout := rfl
@[simp] theorem State.storeFrame_wireLen : (s.storeFrame f).wireLen = s.wireLen := rfl
@[simp] theorem State.storeFrame_rspAddr : (s.storeFrame f).rspAddr = f.addr := rfl
@[simp] theorem State.storeFrame_rspCmd : (s.storeFrame f).rspCmd = f.cmd := rfl
@[simp] theorem State.storeFrame_rspLen : (s.storeFrame f).rspLen = BitVec.ofNat 8 f.payload.length := rfl
@[simp] theorem State.storeFrame_rspIsResponse : (s.storeFrame f).rspIsResponse = true := rfl
@[simp] theorem State.storeFrame_txpay : (s.storeFrame f).txpay = s.txpay := rfl
@[simp] theorem State.storeFrame_rxpay : (s.storeFrame f).rxpay = Memory.ofList f.payload := rfl
@[simp] theorem State.storeFrame_wire : (s.storeFrame f).wire = s.wire := rfl
@[simp] theorem State.storeFrame_rxbuf : (s.storeFrame f).rxbuf = s.rxbuf := rfl
@[simp] theorem State.storeFrame_txout : (s.storeFrame f).txout = s.txout := rfl
@[simp] theorem State.storeFrame_timer : (s.storeFrame f).timer = s.timer := rfl
@[simp] theorem State.storeFrame_scan : (s.storeFrame f).scan = s.scan := rfl
@[simp] theorem State.storeFrame_inputs : (s.storeFrame f).inputs = s.inputs := rfl
@[simp] theorem State.storeFrame_hostData : (s.storeFrame f).hostData = s.hostData := rfl
@[simp] theorem State.storeFrame_unitOut : (s.storeFrame f).unitOut = s.unitOut := rfl
@[simp] theorem State.storeFrame_freeCount : (s.storeFrame f).freeCount = s.freeCount := rfl

end storeFrame

/-! ### storeWire -/

section storeWire
variable (s : State) (w : List Byte)

@[simp] theorem State.storeWire_busy : (s.storeWire w).busy = s.busy := rfl
@[simp] theorem State.storeWire_phase : (s.storeWire w).phase = s.phase := rfl
@[simp] theorem State.storeWire_resynced : (s.storeWire w).resynced = s.resynced := rfl
@[simp] theorem State.storeWire_rspValid : (s.storeWire w).rspValid = s.rspValid := rfl
@[simp] theorem State.storeWire_escLegacy : (s.storeWire w).escLegacy = s.escLegacy := rfl
@[simp] theorem State.storeWire_result : (s.storeWire w).result = s.result := rfl
@[simp] theorem State.storeWire_firstErr : (s.storeWire w).firstErr = s.firstErr := rfl
@[simp] theorem State.storeWire_reqAddr : (s.storeWire w).reqAddr = s.reqAddr := rfl
@[simp] theorem State.storeWire_reqCmd : (s.storeWire w).reqCmd = s.reqCmd := rfl
@[simp] theorem State.storeWire_reqPlen : (s.storeWire w).reqPlen = s.reqPlen := rfl
@[simp] theorem State.storeWire_timeout : (s.storeWire w).timeout = s.timeout := rfl
@[simp] theorem State.storeWire_wireLen : (s.storeWire w).wireLen = BitVec.ofNat 16 w.length := rfl
@[simp] theorem State.storeWire_rspAddr : (s.storeWire w).rspAddr = s.rspAddr := rfl
@[simp] theorem State.storeWire_rspCmd : (s.storeWire w).rspCmd = s.rspCmd := rfl
@[simp] theorem State.storeWire_rspLen : (s.storeWire w).rspLen = s.rspLen := rfl
@[simp] theorem State.storeWire_rspIsResponse : (s.storeWire w).rspIsResponse = s.rspIsResponse := rfl
@[simp] theorem State.storeWire_txpay : (s.storeWire w).txpay = s.txpay := rfl
@[simp] theorem State.storeWire_rxpay : (s.storeWire w).rxpay = s.rxpay := rfl
@[simp] theorem State.storeWire_wire : (s.storeWire w).wire = Memory.ofList w := rfl
@[simp] theorem State.storeWire_rxbuf : (s.storeWire w).rxbuf = s.rxbuf := rfl
@[simp] theorem State.storeWire_txout : (s.storeWire w).txout = s.txout := rfl
@[simp] theorem State.storeWire_timer : (s.storeWire w).timer = s.timer := rfl
@[simp] theorem State.storeWire_scan : (s.storeWire w).scan = s.scan := rfl
@[simp] theorem State.storeWire_inputs : (s.storeWire w).inputs = s.inputs := rfl
@[simp] theorem State.storeWire_hostData : (s.storeWire w).hostData = s.hostData := rfl
@[simp] theorem State.storeWire_unitOut : (s.storeWire w).unitOut = s.unitOut := rfl
@[simp] theorem State.storeWire_freeCount : (s.storeWire w).freeCount = s.freeCount := rfl

end storeWire

/-! ### clearScan -/

section clearScan
variable (s : State) 

@[simp] theorem State.clearScan_busy : s.clearScan.busy = s.busy := rfl
@[simp] theorem State.clearScan_phase : s.clearScan.phase = s.phase := rfl
@[simp] theorem State.clearScan_resynced : s.clearScan.resynced = s.resynced := rfl
@[simp] theorem State.clearScan_rspValid : s.clearScan.rspValid = s.rspValid := rfl
@[simp] theorem State.clearScan_escLegacy : s.clearScan.escLegacy = s.escLegacy := rfl
@[simp] theorem State.clearScan_result : s.clearScan.result = s.result := rfl
@[simp] theorem State.clearScan_firstErr : s.clearScan.firstErr = s.firstErr := rfl
@[simp] theorem State.clearScan_reqAddr : s.clearScan.reqAddr = s.reqAddr := rfl
@[simp] theorem State.clearScan_reqCmd : s.clearScan.reqCmd = s.reqCmd := rfl
@[simp] theorem State.clearScan_reqPlen : s.clearScan.reqPlen = s.reqPlen := rfl
@[simp] theorem State.clearScan_timeout : s.clearScan.timeout = s.timeout := rfl
@[simp] theorem State.clearScan_wireLen : s.clearScan.wireLen = s.wireLen := rfl
@[simp] theorem State.clearScan_rspAddr : s.clearScan.rspAddr = s.rspAddr := rfl
@[simp] theorem State.clearScan_rspCmd : s.clearScan.rspCmd = s.rspCmd := rfl
@[simp] theorem State.clearScan_rspLen : s.clearScan.rspLen = s.rspLen := rfl
@[simp] theorem State.clearScan_rspIsResponse : s.clearScan.rspIsResponse = s.rspIsResponse := rfl
@[simp] theorem State.clearScan_txpay : s.clearScan.txpay = s.txpay := rfl
@[simp] theorem State.clearScan_rxpay : s.clearScan.rxpay = s.rxpay := rfl
@[simp] theorem State.clearScan_wire : s.clearScan.wire = s.wire := rfl
@[simp] theorem State.clearScan_rxbuf : s.clearScan.rxbuf = s.rxbuf := rfl
@[simp] theorem State.clearScan_txout : s.clearScan.txout = s.txout := rfl
@[simp] theorem State.clearScan_timer : s.clearScan.timer = s.timer := rfl
@[simp] theorem State.clearScan_scan : s.clearScan.scan = Scan.zero := rfl
@[simp] theorem State.clearScan_inputs : s.clearScan.inputs = s.inputs := rfl
@[simp] theorem State.clearScan_hostData : s.clearScan.hostData = s.hostData := rfl
@[simp] theorem State.clearScan_unitOut : s.clearScan.unitOut = s.unitOut := rfl
@[simp] theorem State.clearScan_freeCount : s.clearScan.freeCount = s.freeCount := rfl

end clearScan

/-! ### fail -/

section fail
variable (s : State) (c : Code)

@[simp] theorem State.fail_busy : (s.fail c).busy = false := rfl
@[simp] theorem State.fail_phase : (s.fail c).phase = .idle := rfl
@[simp] theorem State.fail_resynced : (s.fail c).resynced = s.resynced := rfl
@[simp] theorem State.fail_rspValid : (s.fail c).rspValid = false := rfl
@[simp] theorem State.fail_escLegacy : (s.fail c).escLegacy = s.escLegacy := rfl
@[simp] theorem State.fail_result : (s.fail c).result = c := rfl
@[simp] theorem State.fail_firstErr : (s.fail c).firstErr = s.firstErr := rfl
@[simp] theorem State.fail_reqAddr : (s.fail c).reqAddr = s.reqAddr := rfl
@[simp] theorem State.fail_reqCmd : (s.fail c).reqCmd = s.reqCmd := rfl
@[simp] theorem State.fail_reqPlen : (s.fail c).reqPlen = s.reqPlen := rfl
@[simp] theorem State.fail_timeout : (s.fail c).timeout = s.timeout := rfl
@[simp] theorem State.fail_wireLen : (s.fail c).wireLen = s.wireLen := rfl
@[simp] theorem State.fail_rspAddr : (s.fail c).rspAddr = Config.freeByte s.freeCount := rfl
@[simp] theorem State.fail_rspCmd : (s.fail c).rspCmd = Config.freeByte (s.freeCount + 1) := rfl
@[simp] theorem State.fail_rspLen : (s.fail c).rspLen = Config.freeByte (s.freeCount + 2) := rfl
@[simp] theorem State.fail_rspIsResponse : (s.fail c).rspIsResponse = (Config.freeByte (s.freeCount + 3)).getLsbD 0 := rfl
@[simp] theorem State.fail_txpay : (s.fail c).txpay = s.txpay := rfl
@[simp] theorem State.fail_rxpay : (s.fail c).rxpay = [] := rfl
@[simp] theorem State.fail_wire : (s.fail c).wire = s.wire := rfl
@[simp] theorem State.fail_rxbuf : (s.fail c).rxbuf = s.rxbuf := rfl
@[simp] theorem State.fail_txout : (s.fail c).txout = s.txout := rfl
@[simp] theorem State.fail_timer : (s.fail c).timer = s.timer := rfl
@[simp] theorem State.fail_scan : (s.fail c).scan = s.scan := rfl
@[simp] theorem State.fail_inputs : (s.fail c).inputs = s.inputs := rfl
@[simp] theorem State.fail_hostData : (s.fail c).hostData = s.hostData := rfl
@[simp] theorem State.fail_unitOut : (s.fail c).unitOut = s.unitOut := rfl
@[simp] theorem State.fail_freeCount : (s.fail c).freeCount = s.freeCount + 4 := rfl

end fail

/-! ### openScan -/

section openScan
variable (s : State) 

@[simp] theorem State.openScan_busy : s.openScan.busy = s.busy := rfl
@[simp] theorem State.openScan_phase : s.openScan.phase = s.phase := rfl
@[simp] theorem State.openScan_resynced : s.openScan.resynced = s.resynced := rfl
@[simp] theorem State.openScan_rspValid : s.openScan.rspValid = s.rspValid := rfl
@[simp] theorem State.openScan_escLegacy : s.openScan.escLegacy = s.escLegacy := rfl
@[simp] theorem State.openScan_result : s.openScan.result = s.result := rfl
@[simp] theorem State.openScan_firstErr : s.openScan.firstErr = s.firstErr := rfl
@[simp] theorem State.openScan_reqAddr : s.openScan.reqAddr = s.reqAddr := rfl
@[simp] theorem State.openScan_reqCmd : s.openScan.reqCmd = s.reqCmd := rfl
@[simp] theorem State.openScan_reqPlen : s.openScan.reqPlen = s.reqPlen := rfl
@[simp] theorem State.openScan_timeout : s.openScan.timeout = s.timeout := rfl
@[simp] theorem State.openScan_wireLen : s.openScan.wireLen = s.wireLen := rfl
@[simp] theorem State.openScan_rspAddr : s.openScan.rspAddr = s.rspAddr := rfl
@[simp] theorem State.openScan_rspCmd : s.openScan.rspCmd = s.rspCmd := rfl
@[simp] theorem State.openScan_rspLen : s.openScan.rspLen = s.rspLen := rfl
@[simp] theorem State.openScan_rspIsResponse : s.openScan.rspIsResponse = s.rspIsResponse := rfl
@[simp] theorem State.openScan_txpay : s.openScan.txpay = s.txpay := rfl
@[simp] theorem State.openScan_rxpay : s.openScan.rxpay = s.rxpay := rfl
@[simp] theorem State.openScan_wire : s.openScan.wire = s.wire := rfl
@[simp] theorem State.openScan_rxbuf : s.openScan.rxbuf = s.rxbuf := rfl
@[simp] theorem State.openScan_txout : s.openScan.txout = s.txout := rfl
@[simp] theorem State.openScan_timer : s.openScan.timer = s.timer := rfl
@[simp] theorem State.openScan_scan : s.openScan.scan = scanBody s.escLegacy s.rxbuf.tail := rfl
@[simp] theorem State.openScan_inputs : s.openScan.inputs = s.inputs := rfl
@[simp] theorem State.openScan_hostData : s.openScan.hostData = s.hostData := rfl
@[simp] theorem State.openScan_unitOut : s.openScan.unitOut = s.unitOut := rfl
@[simp] theorem State.openScan_freeCount : s.openScan.freeCount = s.freeCount := rfl

end openScan

/-! ### startXfer -/

section startXfer
variable (s : State) 

@[simp] theorem State.startXfer_busy : s.startXfer.busy = true := rfl
@[simp] theorem State.startXfer_phase : s.startXfer.phase = .tx := rfl
@[simp] theorem State.startXfer_resynced : s.startXfer.resynced = false := rfl
@[simp] theorem State.startXfer_rspValid : s.startXfer.rspValid = s.rspValid := rfl
@[simp] theorem State.startXfer_escLegacy : s.startXfer.escLegacy = s.escLegacy := rfl
@[simp] theorem State.startXfer_result : s.startXfer.result = s.result := rfl
@[simp] theorem State.startXfer_firstErr : s.startXfer.firstErr = none := rfl
@[simp] theorem State.startXfer_reqAddr : s.startXfer.reqAddr = s.reqAddr := rfl
@[simp] theorem State.startXfer_reqCmd : s.startXfer.reqCmd = s.reqCmd := rfl
@[simp] theorem State.startXfer_reqPlen : s.startXfer.reqPlen = s.reqPlen := rfl
@[simp] theorem State.startXfer_timeout : s.startXfer.timeout = s.timeout := rfl
@[simp] theorem State.startXfer_wireLen : s.startXfer.wireLen = s.wireLen := rfl
@[simp] theorem State.startXfer_rspAddr : s.startXfer.rspAddr = s.rspAddr := rfl
@[simp] theorem State.startXfer_rspCmd : s.startXfer.rspCmd = s.rspCmd := rfl
@[simp] theorem State.startXfer_rspLen : s.startXfer.rspLen = s.rspLen := rfl
@[simp] theorem State.startXfer_rspIsResponse : s.startXfer.rspIsResponse = s.rspIsResponse := rfl
@[simp] theorem State.startXfer_txpay : s.startXfer.txpay = s.txpay := rfl
@[simp] theorem State.startXfer_rxpay : s.startXfer.rxpay = s.rxpay := rfl
@[simp] theorem State.startXfer_wire : s.startXfer.wire = s.wire := rfl
@[simp] theorem State.startXfer_rxbuf : s.startXfer.rxbuf = s.rxbuf := rfl
@[simp] theorem State.startXfer_txout : s.startXfer.txout = s.txout := rfl
@[simp] theorem State.startXfer_timer : s.startXfer.timer = s.timer := rfl
@[simp] theorem State.startXfer_scan : s.startXfer.scan = s.scan := rfl
@[simp] theorem State.startXfer_inputs : s.startXfer.inputs = s.inputs := rfl
@[simp] theorem State.startXfer_hostData : s.startXfer.hostData = s.hostData := rfl
@[simp] theorem State.startXfer_unitOut : s.startXfer.unitOut = s.unitOut := rfl
@[simp] theorem State.startXfer_freeCount : s.startXfer.freeCount = s.freeCount := rfl

end startXfer

/-! ### transmit -/

section transmit
variable (s : State) (w : List Byte)

@[simp] theorem State.transmit_busy : (s.transmit w).busy = s.busy := rfl
@[simp] theorem State.transmit_phase : (s.transmit w).phase = .rx := rfl
@[simp] theorem State.transmit_resynced : (s.transmit w).resynced = s.resynced := rfl
@[simp] theorem State.transmit_rspValid : (s.transmit w).rspValid = s.rspValid := rfl
@[simp] theorem State.transmit_escLegacy : (s.transmit w).escLegacy = s.escLegacy := rfl
@[simp] theorem State.transmit_result : (s.transmit w).result = s.result := rfl
@[simp] theorem State.transmit_firstErr : (s.transmit w).firstErr = s.firstErr := rfl
@[simp] theorem State.transmit_reqAddr : (s.transmit w).reqAddr = s.reqAddr := rfl
@[simp] theorem State.transmit_reqCmd : (s.transmit w).reqCmd = s.reqCmd := rfl
@[simp] theorem State.transmit_reqPlen : (s.transmit w).reqPlen = s.reqPlen := rfl
@[simp] theorem State.transmit_timeout : (s.transmit w).timeout = s.timeout := rfl
@[simp] theorem State.transmit_wireLen : (s.transmit w).wireLen = s.wireLen := rfl
@[simp] theorem State.transmit_rspAddr : (s.transmit w).rspAddr = s.rspAddr := rfl
@[simp] theorem State.transmit_rspCmd : (s.transmit w).rspCmd = s.rspCmd := rfl
@[simp] theorem State.transmit_rspLen : (s.transmit w).rspLen = s.rspLen := rfl
@[simp] theorem State.transmit_rspIsResponse : (s.transmit w).rspIsResponse = s.rspIsResponse := rfl
@[simp] theorem State.transmit_txpay : (s.transmit w).txpay = s.txpay := rfl
@[simp] theorem State.transmit_rxpay : (s.transmit w).rxpay = s.rxpay := rfl
@[simp] theorem State.transmit_wire : (s.transmit w).wire = s.wire := rfl
@[simp] theorem State.transmit_rxbuf : (s.transmit w).rxbuf = s.rxbuf := rfl
@[simp] theorem State.transmit_txout : (s.transmit w).txout = s.txout ++ w := rfl
@[simp] theorem State.transmit_timer : (s.transmit w).timer = s.timeout := rfl
@[simp] theorem State.transmit_scan : (s.transmit w).scan = s.scan := rfl
@[simp] theorem State.transmit_inputs : (s.transmit w).inputs = s.inputs := rfl
@[simp] theorem State.transmit_hostData : (s.transmit w).hostData = s.hostData := rfl
@[simp] theorem State.transmit_unitOut : (s.transmit w).unitOut = s.unitOut := rfl
@[simp] theorem State.transmit_freeCount : (s.transmit w).freeCount = s.freeCount := rfl

end transmit

/-! ### retireScan -/

section retireScan
variable (s : State)

@[simp] theorem State.retireScan_busy : s.retireScan.busy = s.busy := by
  unfold State.retireScan; split <;> rfl
@[simp] theorem State.retireScan_phase : s.retireScan.phase = s.phase := by
  unfold State.retireScan; split <;> rfl
@[simp] theorem State.retireScan_resynced : s.retireScan.resynced = s.resynced := by
  unfold State.retireScan; split <;> rfl
@[simp] theorem State.retireScan_rspValid : s.retireScan.rspValid = s.rspValid := by
  unfold State.retireScan; split <;> rfl
@[simp] theorem State.retireScan_escLegacy : s.retireScan.escLegacy = s.escLegacy := by
  unfold State.retireScan; split <;> rfl
@[simp] theorem State.retireScan_result : s.retireScan.result = s.result := by
  unfold State.retireScan; split <;> rfl
@[simp] theorem State.retireScan_firstErr : s.retireScan.firstErr = s.firstErr := by
  unfold State.retireScan; split <;> rfl
@[simp] theorem State.retireScan_reqAddr : s.retireScan.reqAddr = s.reqAddr := by
  unfold State.retireScan; split <;> rfl
@[simp] theorem State.retireScan_reqCmd : s.retireScan.reqCmd = s.reqCmd := by
  unfold State.retireScan; split <;> rfl
@[simp] theorem State.retireScan_reqPlen : s.retireScan.reqPlen = s.reqPlen := by
  unfold State.retireScan; split <;> rfl
@[simp] theorem State.retireScan_timeout : s.retireScan.timeout = s.timeout := by
  unfold State.retireScan; split <;> rfl
@[simp] theorem State.retireScan_wireLen : s.retireScan.wireLen = s.wireLen := by
  unfold State.retireScan; split <;> rfl
@[simp] theorem State.retireScan_rspAddr : s.retireScan.rspAddr = s.rspAddr := by
  unfold State.retireScan; split <;> rfl
@[simp] theorem State.retireScan_rspCmd : s.retireScan.rspCmd = s.rspCmd := by
  unfold State.retireScan; split <;> rfl
@[simp] theorem State.retireScan_rspLen : s.retireScan.rspLen = s.rspLen := by
  unfold State.retireScan; split <;> rfl
@[simp] theorem State.retireScan_rspIsResponse : s.retireScan.rspIsResponse = s.rspIsResponse := by
  unfold State.retireScan; split <;> rfl
@[simp] theorem State.retireScan_txpay : s.retireScan.txpay = s.txpay := by
  unfold State.retireScan; split <;> rfl
@[simp] theorem State.retireScan_rxpay : s.retireScan.rxpay = s.rxpay := by
  unfold State.retireScan; split <;> rfl
@[simp] theorem State.retireScan_wire : s.retireScan.wire = s.wire := by
  unfold State.retireScan; split <;> rfl
@[simp] theorem State.retireScan_rxbuf : s.retireScan.rxbuf = s.rxbuf := by
  unfold State.retireScan; split <;> rfl
@[simp] theorem State.retireScan_txout : s.retireScan.txout = s.txout := by
  unfold State.retireScan; split <;> rfl
@[simp] theorem State.retireScan_timer : s.retireScan.timer = s.timer := by
  unfold State.retireScan; split <;> rfl
@[simp] theorem State.retireScan_inputs : s.retireScan.inputs = s.inputs := by
  unfold State.retireScan; split <;> rfl
@[simp] theorem State.retireScan_hostData : s.retireScan.hostData = s.hostData := by
  unfold State.retireScan; split <;> rfl
@[simp] theorem State.retireScan_unitOut : s.retireScan.unitOut = s.unitOut := by
  unfold State.retireScan; split <;> rfl
@[simp] theorem State.retireScan_freeCount : s.retireScan.freeCount = s.freeCount := by
  unfold State.retireScan; split <;> rfl

/-- What retireScan does to the scan state: it keeps that of an unfinished candidate of the receive phase alone. -/
theorem State.retireScan_scan :
    s.retireScan.scan = if s.phase = .rx ∧ bodyStarted s.rxbuf = true then s.scan else Scan.zero := by
  unfold State.retireScan; split <;> rfl

end retireScan

end Sys2Proof.Machine
end

