-- ==== Sys2Proof/Laws/Stuffing.lean ====
section
/-! SUPPORT. Small lemmas of the stuffer and of the unstuffing scan. -/

namespace Sys2Proof.Machine

open Config

/-! ## The escape set and STUFF -/

theorem inEscSet_iff (x : Bool) (b : Byte) :
    inEscSet x b = true ↔ b = flagByte ∨ b = escByte ∨ (x = true ∧ (b = ctl11Byte ∨ b = ctl13Byte)) := by
  simp [inEscSet, or_assoc]

@[simp] theorem stuff_nil (x : Bool) : stuff x [] = [] := rfl

@[simp] theorem stuff_cons (x : Bool) (b : Byte) (l : List Byte) : stuff x (b :: l) = stuff1 x b ++ stuff x l := rfl

@[simp] theorem stuff_append (x : Bool) (l l' : List Byte) : stuff x (l ++ l') = stuff x l ++ stuff x l' := by
  induction l with
  | nil => rfl
  | cons b l ih => simp [ih]

/-- STUFF replaces each byte by its own one or two bytes. -/
theorem stuff_eq_flatMap (x : Bool) (l : List Byte) : stuff x l = l.flatMap (stuff1 x) := by
  induction l with
  | nil => rfl
  | cons b l ih => simp [ih]

theorem stuff1_of_mem {x : Bool} {b : Byte} (h : inEscSet x b = true) : stuff1 x b = [escByte, b ^^^ stuffXor] := by
  simp [stuff1, h]

theorem stuff1_of_not_mem {x : Bool} {b : Byte} (h : inEscSet x b = false) : stuff1 x b = [b] := by
  simp [stuff1, h]

/-! ## The scan, class by class -/

section
variable {sc : Scan} {x : Bool} {b v : Byte}

theorem Scan.accept_of_alive (h : sc.bad = false) :
    sc.accept v = ⟨sc.idx + 1, false, sc.sum + v, sc.inner ++ [v], false⟩ := by
  obtain ⟨i, p, s, l, bd⟩ := sc
  simp only at h
  simp [Scan.accept, h]

theorem Scan.escape_of_alive (h : sc.bad = false) :
    sc.escape = ⟨sc.idx + 1, true, sc.sum, sc.inner, false⟩ := by
  obtain ⟨i, p, s, l, bd⟩ := sc
  simp only at h
  simp [Scan.escape, h]

theorem Scan.reject_of_alive (h : sc.bad = false) :
    sc.reject = ⟨sc.idx + 1, false, sc.sum, sc.inner, true⟩ := by
  obtain ⟨i, p, s, l, bd⟩ := sc
  simp only at h
  simp [Scan.reject, h]

/-- A scan that has failed reads no further. -/
theorem Scan.readByte_of_bad (h : sc.bad = true) : sc.readByte x b = sc := by
  unfold Scan.readByte Scan.escaped Scan.accept Scan.reject Scan.escape
  simp [h]

theorem Scan.readByte_pending (hp : sc.escPend = true) :
    sc.readByte x b = sc.escaped x (b ^^^ stuffXor) := by
  simp [Scan.readByte, hp]

theorem Scan.readByte_esc (hp : sc.escPend = false) : sc.readByte x escByte = sc.escape := by
  simp [Scan.readByte, hp]

theorem Scan.readByte_plain (hp : sc.escPend = false) (hb : b ≠ escByte) : sc.readByte x b = sc.accept b := by
  simp [Scan.readByte, hp, hb]

end

theorem scan_foldl_bad {x : Bool} {sc : Scan} (h : sc.bad = true) (body : List Byte) :
    body.foldl (Scan.readByte x) sc = sc := by
  induction body with
  | nil => rfl
  | cons b body ih => simp [Scan.readByte_of_bad h, ih]

/-- `A` is `B` carried on from an earlier part of the scan. -/
structure Scan.CarriesOn (start A B : Scan) : Prop where
  idx : A.idx = start.idx + B.idx
  escPend : A.escPend = B.escPend
  sum : A.sum = start.sum + B.sum
  inner : A.inner = start.inner ++ B.inner
  bad : A.bad = B.bad

theorem Scan.CarriesOn.readByte {start A B : Scan} (h : Scan.CarriesOn start A B) (x : Bool) (b : Byte) :
    Scan.CarriesOn start (A.readByte x b) (B.readByte x b) := by
  obtain ⟨h1, h2, h3, h4, h5⟩ := h
  unfold Scan.readByte Scan.escaped Scan.accept Scan.reject Scan.escape
  rw [h2, h5]
  cases hbad : B.bad <;> cases hp : B.escPend <;> simp only [Bool.false_eq_true, if_true, if_false]
  · split <;> constructor <;> simp [*, BitVec.add_assoc]
  · split <;> constructor <;> simp [*, BitVec.add_assoc]
  · constructor <;> simp [*]
  · constructor <;> simp [*]

theorem Scan.CarriesOn.foldl {start A B : Scan} (h : Scan.CarriesOn start A B) (x : Bool) (body : List Byte) :
    Scan.CarriesOn start (body.foldl (Scan.readByte x) A) (body.foldl (Scan.readByte x) B) := by
  induction body generalizing A B with
  | nil => exact h
  | cons b body ih => exact ih (h.readByte x b)

/-- A scan taken up from a point where no escape is pending returns what was read before and then what a scan of the rest
returns. -/
theorem scan_result_from {x : Bool} {sc : Scan} (hb : sc.bad = false) (hp : sc.escPend = false) (body : List Byte) :
    (body.foldl (Scan.readByte x) sc).result = (unstuff x body).map (sc.inner ++ ·) := by
  have h0 : Scan.CarriesOn sc sc Scan.zero := by
    constructor <;> simp [Scan.zero, hb, hp]
  obtain ⟨-, h2, -, h4, h5⟩ := h0.foldl x body
  simp only [unstuff, scanBody, Scan.result, h2, h4, h5]
  split <;> simp_all [Except.map]

theorem scanBody_append (x : Bool) (l l' : List Byte) :
    scanBody x (l ++ l') = l'.foldl (Scan.readByte x) (scanBody x l) := by
  simp [scanBody]

@[simp] theorem scanBody_nil (x : Bool) : scanBody x [] = Scan.zero := rfl

theorem scanBody_concat (x : Bool) (l : List Byte) (b : Byte) :
    scanBody x (l ++ [b]) = (scanBody x l).readByte x b := by
  simp [scanBody]

end Sys2Proof.Machine
end

