-- ==== Sys2Proof/Laws/Codec.lean ====
section
/-! SUPPORT. Small lemmas of the checksum and the frame codec, and what each host operation of the codec can answer. -/

namespace Sys2Proof.Machine

open Config

/-! ## Sums -/

@[simp] theorem byteSum_nil : byteSum [] = 0 := rfl

@[simp] theorem byteSum_cons (b : Byte) (l : List Byte) : byteSum (b :: l) = b.toNat + byteSum l := rfl

@[simp] theorem byteSum_append (l l' : List Byte) : byteSum (l ++ l') = byteSum l + byteSum l' := by
  induction l with
  | nil => simp
  | cons b l ih => simp [ih, Nat.add_assoc]

theorem cks_toNat (l : List Byte) : (cks l).toNat = 255 - byteSum l % 256 := by
  simp only [cks, BitVec.toNat_ofNat]
  omega

theorem cks_eq_iff (l : List Byte) (b : Byte) : cks l = b ↔ (byteSum l + b.toNat) % 256 = 255 := by
  have hb := b.isLt
  rw [← BitVec.toNat_inj, cks_toNat]
  omega

theorem cksumVfy_concat (l : List Byte) (b : Byte) : cksumVfy (l ++ [b]) = decide (cks l = b) := by
  simp only [cksumVfy, List.getLast?_append, List.getLast?_singleton, Option.some_or, List.dropLast_concat]
  by_cases h : cks l = b <;> simp [h]

/-! ## Frames on the wire -/

theorem getLast?_concat_flag (l : List Byte) : (l ++ [flagByte]).getLast? = some flagByte := by simp

/-- Bytes between two delimiters, with no delimiter inside, decode as their unstuffed bytes parse (42_frame_codec.md R170). -/
theorem decodeFrame_delimited (x : Bool) {body : List Byte} (h : flagByte ∉ body) :
    decodeFrame x (flagByte :: (body ++ [flagByte])) =
      match unstuff x body with
      | .error e => .error e
      | .ok u => parseInner u := by
  have hc : body.contains flagByte = false := by simpa using h
  simp only [decodeFrame, getLast?_concat_flag, List.dropLast_concat, hc]
  cases unstuff x body <;> simp

/-- What decodes is delimited, has no delimiter inside, and its unstuffed bytes parse. -/
theorem decodeFrame_eq_ok {x : Bool} {raw : List Byte} {f : Frame} (h : decodeFrame x raw = .ok f) :
    ∃ body u, raw = flagByte :: (body ++ [flagByte]) ∧ flagByte ∉ body ∧ unstuff x body = .ok u ∧
      parseInner u = .ok f := by
  unfold decodeFrame at h
  split at h
  · rename_i first rest
    split at h
    · cases h
    · rename_i hne
      simp only [not_or, ne_eq, not_not] at hne
      split at h
      · cases h
      · rename_i hc
        have hrest : rest = rest.dropLast ++ [flagByte] := by
          have hr : rest ≠ [] := by rintro rfl; simp at hne
          have hl := hne.2
          rw [List.getLast?_eq_some_getLast hr, Option.some.injEq] at hl
          conv_lhs => rw [← List.dropLast_append_getLast hr, hl]
        split at h
        · cases h
        · rename_i u hu
          exact ⟨rest.dropLast, u, by rw [hne.1, ← hrest], by simpa using hc, hu, h⟩
  · cases h

/-- What parses is address, command, the payload's length, the payload and the checksum of all of these (42_frame_codec.md
R173 to R175). -/
theorem parseInner_eq_ok {u : List Byte} {f : Frame} (h : parseInner u = .ok f) :
    ∃ len : Byte, len.toNat = f.payload.length ∧ f.isResponse = true ∧
      u = f.addr :: f.cmd :: len :: (f.payload ++ [cks (f.addr :: f.cmd :: len :: f.payload)]) := by
  unfold parseInner at h
  split at h
  · rename_i addr cmd len rest
    split at h
    · cases h
    · rename_i hne
      obtain ⟨payload, chk, rfl⟩ : ∃ p k, rest = p ++ [k] :=
        ⟨rest.dropLast, rest.getLast hne, (List.dropLast_append_getLast hne).symm⟩
      split at h
      · cases h
      · rename_i hv
        split at h
        · cases h
        · rename_i hl
          cases h
          simp only [List.dropLast_concat, ne_eq, not_not] at hl ⊢
          have hv' : cksumVfy ((addr :: cmd :: len :: payload) ++ [chk]) = true := by simpa using hv
          rw [cksumVfy_concat, decide_eq_true_eq] at hv'
          exact ⟨len, hl, trivial, by rw [hv']⟩
  · cases h

theorem ofNat_length_toNat {payload : List Byte} (h : payload.length ≤ 255) :
    (BitVec.ofNat 8 payload.length).toNat = payload.length := by
  rw [BitVec.toNat_ofNat]; omega

/-- A frame that decodes carries at most 255 payload bytes (00_scope.md R13). -/
theorem decodeFrame_payload_le {x : Bool} {raw : List Byte} {f : Frame} (h : decodeFrame x raw = .ok f) :
    f.payload.length ≤ 255 := by
  obtain ⟨-, u, -, -, -, hp⟩ := decodeFrame_eq_ok h
  obtain ⟨len, hl, -⟩ := parseInner_eq_ok hp
  have := len.isLt
  omega

theorem encodeFrame_of_le {x : Bool} {addr cmd : Byte} {payload : List Byte} (h : payload.length ≤ 255) :
    encodeFrame x addr cmd payload = .ok (wireOf x addr cmd payload (cksumGen addr cmd payload)) := by
  unfold encodeFrame
  rw [if_neg (by unfold maxPayload; omega)]

theorem encodeFrame_eq_ok {x : Bool} {addr cmd : Byte} {payload w : List Byte} :
    encodeFrame x addr cmd payload = .ok w ↔
      payload.length ≤ 255 ∧ w = wireOf x addr cmd payload (cksumGen addr cmd payload) := by
  unfold encodeFrame
  by_cases h : maxPayload < payload.length
  · rw [if_pos h]
    constructor
    · intro h'; cases h'
    · rintro ⟨h', -⟩; unfold maxPayload at h; omega
  · rw [if_neg h]
    constructor
    · intro h'; cases h'; exact ⟨by unfold maxPayload at h; omega, rfl⟩
    · rintro ⟨-, rfl⟩; rfl

/-! ## Operands -/

/-- REQ_PLEN does not exceed 255: the payload is not too large (R161). -/
theorem State.plenTooLarge_of_le {s : State} (h : s.reqPlen.toNat ≤ 255) : s.plenTooLarge = false := by
  simp only [State.plenTooLarge, maxPayload, decide_eq_false_iff_not]; omega

theorem State.plenTooLarge_of_lt {s : State} (h : 255 < s.reqPlen.toNat) : s.plenTooLarge = true := by
  simp only [State.plenTooLarge, maxPayload, decide_eq_true_eq]; omega

/-- The payload operand is what TXPAY holds, byte by byte (10_state.md R38). -/
theorem State.reqPayload_eq_some {s : State} {payload : List Byte} :
    s.reqPayload = some payload ↔
      payload.length = s.reqPlen.toNat ∧ ∀ i, i < payload.length → s.txpay.read i = payload[i]? := by
  simp only [State.reqPayload, Memory.readFrom_eq_some, Nat.zero_add]
  constructor
  · rintro ⟨h, h'⟩; exact ⟨h, fun i hi => h' i (h ▸ hi)⟩
  · rintro ⟨h, h'⟩; exact ⟨h, fun i hi => h' i (h ▸ hi)⟩

/-- The raw bytes of DECODE are what WIRE holds, byte by byte (R40). -/
theorem State.rawWire_eq_some {s : State} {raw : List Byte} :
    s.rawWire = some raw ↔
      raw.length = s.wireLen.toNat ∧ ∀ i, i < raw.length → s.wire.read i = raw[i]? := by
  simp only [State.rawWire, Memory.readFrom_eq_some, Nat.zero_add]
  constructor
  · rintro ⟨h, h'⟩; exact ⟨h, fun i hi => h' i (h ▸ hi)⟩
  · rintro ⟨h, h'⟩; exact ⟨h, fun i hi => h' i (h ▸ hi)⟩

/-! ## What ENCODE and DECODE can answer -/

/-- Every way ENCODE goes on (42_frame_codec.md R165). -/
theorem execEncode_cases {s t : State} (h : execEncode s = .next t) :
    s.busy = false ∧
    ((255 < s.reqPlen.toNat ∧ t = s.startOp.finish .payloadTooLarge) ∨
     (∃ payload, payload.length ≤ 255 ∧ s.reqPayload = some payload ∧
        t = (s.startOp.storeWire (wireOf s.escLegacy s.reqAddr s.reqCmd payload
          (cksumGen s.reqAddr s.reqCmd payload))).clearScan.finish .ok)) := by
  unfold execEncode at h
  split at h
  · cases h
  rename_i hb
  refine ⟨by simpa using hb, ?_⟩
  split at h
  · rename_i hp
    cases h
    exact .inl ⟨by simpa [State.plenTooLarge] using hp, rfl⟩
  rename_i hp
  have hle : s.reqPlen.toNat ≤ 255 := by simpa [State.plenTooLarge] using hp
  split at h
  · cases h
  rename_i payload hq
  have hl := (State.reqPayload_eq_some.mp hq).1
  rw [encodeFrame_of_le (by omega)] at h
  cases h
  exact .inr ⟨payload, by omega, hq, rfl⟩

/-- Every way DECODE goes on (42_frame_codec.md R177). -/
theorem execDecode_cases {s t : State} (h : execDecode s = .next t) :
    s.busy = false ∧ ∃ raw, s.rawWire = some raw ∧
      ((∃ f, decodeFrame s.escLegacy raw = .ok f ∧ t = (s.startOp.clearScan.storeFrame f).finish .ok) ∨
       (∃ e, decodeFrame s.escLegacy raw = .error e ∧ t = s.startOp.clearScan.fail e.code)) := by
  unfold execDecode at h
  split at h
  · cases h
  rename_i hb
  refine ⟨by simpa using hb, ?_⟩
  split at h
  · cases h
  rename_i raw hr
  refine ⟨raw, hr, ?_⟩
  split at h
  · rename_i e he; cases h; exact .inr ⟨e, he, rfl⟩
  · rename_i f hf; cases h; exact .inl ⟨f, hf, rfl⟩

end Sys2Proof.Machine
end

