-- ==== Sys2Proof/Laws/PerInstr.lean ====
section
/-! SUPPORT. One lemma per instruction: how many bytes its encoding has (30_encoding.md R91, R103 to R112, R115, R116). -/

namespace Sys2Proof.Laws

open Config

/-- An internal unit has no encoding; a host operation and a wire byte are one byte; a frame before stuffing has six bytes
and its payload, at most 261. -/
def EncodingLength.Statement (i : Instr) : Prop :=
  i.wellFormed = true →
    match channelOf i with
    | none => encode i = []
    | some .frame => 6 ≤ (encode i).length ∧ (encode i).length ≤ 261
    | some _ => (encode i).length = 1

theorem EncodingLength.encode : EncodingLength.Statement .encode := fun _ => rfl

theorem EncodingLength.decode : EncodingLength.Statement .decode := fun _ => rfl

theorem EncodingLength.xfer : EncodingLength.Statement .xfer := fun _ => rfl

theorem EncodingLength.cksumGen (addr cmd : Byte) (payload : List Byte) : EncodingLength.Statement (.cksumGen addr cmd payload) := fun _ => rfl

theorem EncodingLength.cksumVfy (u : List Byte) : EncodingLength.Statement (.cksumVfy u) := fun _ => rfl

theorem EncodingLength.stuff (inner : List Byte) : EncodingLength.Statement (.stuff inner) := fun _ => rfl

theorem EncodingLength.unstuff (body : List Byte) : EncodingLength.Statement (.unstuff body) := fun _ => rfl

theorem EncodingLength.flag : EncodingLength.Statement .flag := fun _ => rfl

theorem EncodingLength.esc : EncodingLength.Statement .esc := fun _ => rfl

theorem EncodingLength.ctl11 : EncodingLength.Statement .ctl11 := fun _ => rfl

theorem EncodingLength.ctl13 : EncodingLength.Statement .ctl13 := fun _ => rfl

theorem EncodingLength.literal (v : Byte) : EncodingLength.Statement (.literal v) := fun _ => rfl

theorem EncodingLength.e5E : EncodingLength.Statement .e5E := fun _ => rfl

theorem EncodingLength.e5D : EncodingLength.Statement .e5D := fun _ => rfl

theorem EncodingLength.e31 : EncodingLength.Statement .e31 := fun _ => rfl

theorem EncodingLength.e33 : EncodingLength.Statement .e33 := fun _ => rfl

theorem EncodingLength.eInvalid (e : Byte) : EncodingLength.Statement (.eInvalid e) := fun _ => rfl

theorem EncodingLength.frame (addr cmd : Byte) (payload : List Byte) (chk : Byte) : EncodingLength.Statement (.frame addr cmd payload chk) := by
  intro h
  simp only [Instr.wellFormed, maxPayload, decide_eq_true_eq] at h
  show 6 ≤ (layoutOf addr cmd payload chk).length ∧ (layoutOf addr cmd payload chk).length ≤ 261
  simp only [layoutOf, List.length_cons, List.length_append, List.length_nil]
  omega

end Sys2Proof.Laws
end

