-- ==== Sys2Proof/Laws/Session.lean ====
section
/-! SUPPORT. What the synchronizer can do, said once: the cases of one step, an induction principle for settling, and the
fields that settling never touches. -/

namespace Sys2Proof.Machine

open Config

/-! ## Finding the closing delimiter -/

theorem splitAtFlag_eq_some {l body after : List Byte} :
    splitAtFlag l = some (body, after) ↔ l = body ++ flagByte :: after ∧ flagByte ∉ body := by
  induction l generalizing body with
  | nil => simp [splitAtFlag]
  | cons b l ih =>
    by_cases hb : b = flagByte
    · subst hb
      simp only [splitAtFlag, if_true, Option.some.injEq, Prod.mk.injEq]
      constructor
      · rintro ⟨rfl, rfl⟩; simp
      · rintro ⟨h, hn⟩
        cases body with
        | nil => simpa using h
        | cons c body =>
          simp only [List.cons_append, List.cons.injEq] at h
          simp [← h.1] at hn
    · simp only [splitAtFlag, if_neg hb]
      constructor
      · intro h
        split at h
        · rename_i p q hpq
          simp only [Option.some.injEq, Prod.mk.injEq] at h
          obtain ⟨rfl, rfl⟩ := h
          obtain ⟨rfl, hn⟩ := ih.mp hpq
          exact ⟨rfl, by simpa [Ne.symm hb] using hn⟩
        · cases h
      · rintro ⟨h, hn⟩
        cases body with
        | nil => simp only [List.nil_append, List.cons.injEq] at h; exact absurd h.1 hb
        | cons c body =>
          simp only [List.cons_append, List.cons.injEq] at h
          obtain ⟨rfl, rfl⟩ := h
          have hs : splitAtFlag (body ++ flagByte :: after) = some (body, after) :=
            ih.mpr ⟨rfl, fun hm => hn (List.mem_cons_of_mem _ hm)⟩
          simp [hs]

theorem splitAtFlag_eq_none {l : List Byte} : splitAtFlag l = none ↔ flagByte ∉ l := by
  induction l with
  | nil => simp [splitAtFlag]
  | cons b l ih =>
    by_cases hb : b = flagByte
    · simp [splitAtFlag, hb]
    · simp only [splitAtFlag, if_neg hb, List.mem_cons, not_or]
      constructor
      · intro h
        split at h
        · cases h
        · rename_i hn; exact ⟨fun h => hb h.symm, ih.mp hn⟩
      · rintro ⟨-, h⟩
        simp [ih.mpr h]

theorem rxSettled_iff {l : List Byte} :
    rxSettled l = true ↔ l = [] ∨ ∃ body, l = flagByte :: body ∧ flagByte ∉ body := by
  cases l with
  | nil => simp [rxSettled]
  | cons b l => simp [rxSettled]

/-! ## One step of the synchronizer -/

/-- The four things one choice of the synchronizer can be (43_transport_session.md R200). -/
theorem State.syncStep_cases (s : State) :
    (∃ b rest, s.rxbuf = b :: rest ∧ b ≠ flagByte ∧ s.syncStep = .again { s with rxbuf := rest }) ∨
    (∃ rest, s.rxbuf = flagByte :: flagByte :: rest ∧
      s.syncStep = .again { s with rxbuf := flagByte :: rest }) ∨
    (∃ body after, s.rxbuf = flagByte :: (body ++ flagByte :: after) ∧ body ≠ [] ∧ flagByte ∉ body ∧
      s.syncStep = s.takeCandidate body after) ∨
    (rxSettled s.rxbuf = true ∧ s.syncStep = s.stall) := by
  rcases hB : s.rxbuf with _ | ⟨b, rest⟩
  · refine .inr (.inr (.inr ⟨rfl, ?_⟩)); simp [State.syncStep, hB]
  by_cases hb : b = flagByte
  · subst hb
    rcases rest with _ | ⟨c, rest⟩
    · refine .inr (.inr (.inr ⟨by decide, ?_⟩)); simp [State.syncStep, hB]
    by_cases hc : c = flagByte
    · subst hc
      exact .inr (.inl ⟨rest, rfl, by simp [State.syncStep, hB]⟩)
    · rcases hs : splitAtFlag (c :: rest) with _ | ⟨body, after⟩
      · refine .inr (.inr (.inr ⟨rxSettled_iff.mpr (.inr ⟨_, rfl, splitAtFlag_eq_none.mp hs⟩), ?_⟩))
        simp [State.syncStep, hB, hc, hs]
      · obtain ⟨he, hn⟩ := splitAtFlag_eq_some.mp hs
        refine .inr (.inr (.inl ⟨body, after, by rw [he], ?_, hn, by simp [State.syncStep, hB, hc, hs]⟩))
        rintro rfl
        simp only [List.nil_append, List.cons.injEq] at he
        exact hc he.1
  · exact .inl ⟨b, rest, rfl, hb, by simp [State.syncStep, hB, hb]⟩

theorem State.syncStep_hunt {s : State} {b : Byte} {rest : List Byte} (h : s.rxbuf = b :: rest) (hb : b ≠ flagByte) :
    s.syncStep = .again { s with rxbuf := rest } := by
  simp [State.syncStep, h, hb]

theorem State.syncStep_adjacent {s : State} {rest : List Byte} (h : s.rxbuf = flagByte :: flagByte :: rest) :
    s.syncStep = .again { s with rxbuf := flagByte :: rest } := by
  simp [State.syncStep, h]

theorem State.syncStep_candidate {s : State} {body after : List Byte}
    (h : s.rxbuf = flagByte :: (body ++ flagByte :: after)) (hne : body ≠ []) (hn : flagByte ∉ body) :
    s.syncStep = s.takeCandidate body after := by
  cases body with
  | nil => exact absurd rfl hne
  | cons c body =>
    have hc : c ≠ flagByte := fun e => hn (by simp [e])
    have hs : splitAtFlag (c :: (body ++ flagByte :: after)) = some (c :: body, after) :=
      splitAtFlag_eq_some.mpr ⟨rfl, hn⟩
    simp only [List.cons_append] at h
    simp [State.syncStep, h, hc, hs]

theorem State.syncStep_settled {s : State} (h : rxSettled s.rxbuf = true) : s.syncStep = s.stall := by
  rcases rxSettled_iff.mp h with h | ⟨body, h, hn⟩
  · simp [State.syncStep, h]
  · cases body with
    | nil => simp [State.syncStep, h]
    | cons c body =>
      have hc : c ≠ flagByte := fun e => hn (by simp [e])
      simp [State.syncStep, h, hc, splitAtFlag_eq_none.mpr hn]

/-- A decoded candidate ends the operation with the frame stored (R210, R211). -/
theorem State.takeCandidate_ok {s : State} {body after : List Byte} {f : Frame}
    (h : decodeFrame s.escLegacy (flagByte :: (body ++ [flagByte])) = .ok f) :
    s.takeCandidate body after = .done (({ s with rxbuf := after }.storeFrame f).correlate f) := by
  simp [State.takeCandidate, h]

/-- The first failed candidate of an invocation is absorbed (R212). -/
theorem State.takeCandidate_first {s : State} {body after : List Byte} {e : DecodeErr}
    (h : decodeFrame s.escLegacy (flagByte :: (body ++ [flagByte])) = .error e) (hr : s.resynced = false) :
    s.takeCandidate body after =
      .again { s with rxbuf := flagByte :: after, resynced := true, firstErr := some e } := by
  simp [State.takeCandidate, h, hr]

/-- The second failed candidate is the outcome (R213). -/
theorem State.takeCandidate_second {s : State} {body after : List Byte} {e : DecodeErr}
    (h : decodeFrame s.escLegacy (flagByte :: (body ++ [flagByte])) = .error e) (hr : s.resynced = true) :
    s.takeCandidate body after = .done ({ s with rxbuf := flagByte :: after }.fail e.code) := by
  simp [State.takeCandidate, h, hr]

/-- Going on removes at least one byte of RXBUF, so settling ends (R225). -/
theorem State.syncStep_again_shorter {s s' : State} (h : s.syncStep = .again s') :
    s'.rxbuf.length < s.rxbuf.length := by
  rcases s.syncStep_cases with ⟨b, rest, hB, -, hs⟩ | ⟨rest, hB, hs⟩ | ⟨body, after, hB, hne, -, hs⟩ | ⟨-, hs⟩
  · rw [hs] at h; cases h; simp [hB]
  · rw [hs] at h; cases h; simp [hB]
  · rw [hs] at h
    have hl : 0 < body.length := List.length_pos_iff.mpr hne
    cases hd : decodeFrame s.escLegacy (flagByte :: (body ++ [flagByte])) with
    | ok f => rw [State.takeCandidate_ok hd] at h; cases h
    | error e =>
      cases hr : s.resynced with
      | false => rw [State.takeCandidate_first hd hr] at h; cases h; simp [hB]
      | true => rw [State.takeCandidate_second hd hr] at h; cases h
  · rw [hs] at h
    unfold State.stall at h
    split at h <;> cases h

/-! ## Settling -/

/-- What holds of a settled state: `P` is kept while the synchronizer goes on, and each way it stops gives `Q`. -/
theorem State.settle_induct {P Q : State → Prop}
    (again : ∀ s s', P s → s.syncStep = .again s' → P s')
    (done : ∀ s s', P s → s.syncStep = .done s' → Q s')
    (waiting : ∀ s s', P s → s.syncStep = .waiting s' → Q s')
    {s : State} (h : P s) : Q s.settle := by
  suffices hf : ∀ fuel s, P s → s.rxbuf.length < fuel → Q (State.settleFor fuel s) from
    hf _ s h (Nat.lt_succ_self _)
  intro fuel
  induction fuel with
  | zero => intro s _ hl; exact absurd hl (Nat.not_lt_zero _)
  | succ fuel ih =>
    intro s hs hl
    simp only [State.settleFor]
    split
    · rename_i s' he
      exact ih s' (again s s' hs he) (by have := State.syncStep_again_shorter he; omega)
    · rename_i s' he; exact done s s' hs he
    · rename_i s' he; exact waiting s s' hs he

/-- More fuel than RXBUF has bytes settles alike. -/
theorem State.settleFor_of_lt {fuel : Nat} {s : State} (h : s.rxbuf.length < fuel) :
    State.settleFor fuel s = s.settle := by
  unfold State.settle
  suffices hf : ∀ m n s, s.rxbuf.length < m → s.rxbuf.length < n → State.settleFor m s = State.settleFor n s from
    hf _ _ s h (Nat.lt_succ_self _)
  clear h
  intro m
  induction m with
  | zero => intro n s hm; exact absurd hm (Nat.not_lt_zero _)
  | succ m ih =>
    intro n s hm hn
    cases n with
    | zero => exact absurd hn (Nat.not_lt_zero _)
    | succ n =>
      simp only [State.settleFor]
      split
      · rename_i s' he
        have := State.syncStep_again_shorter he
        exact ih n s' (by omega) (by omega)
      · rfl
      · rfl

/-- Settling takes the step of the synchronizer and settles what it leaves. -/
theorem State.settle_again {s s' : State} (h : s.syncStep = .again s') : s.settle = s'.settle := by
  have := State.syncStep_again_shorter h
  conv_lhs => unfold State.settle
  simp only [State.settleFor, h]
  exact State.settleFor_of_lt this

theorem State.settle_done {s s' : State} (h : s.syncStep = .done s') : s.settle = s' := by
  simp [State.settle, State.settleFor, h]

theorem State.settle_waiting {s s' : State} (h : s.syncStep = .waiting s') : s.settle = s' := by
  simp [State.settle, State.settleFor, h]

/-- A settled RXBUF and a running timer: nothing happens (R208). -/
theorem State.settle_quiescent {s : State} (h : rxSettled s.rxbuf = true) (ht : s.timer ≠ 0) : s.settle = s :=
  State.settle_waiting (by rw [State.syncStep_settled h, State.stall, if_neg ht])

/-- A settled RXBUF and an expired timer: Timeout (R219). -/
theorem State.settle_timeout {s : State} (h : rxSettled s.rxbuf = true) (ht : s.timer = 0) :
    s.settle = s.fail .timeout :=
  State.settle_done (by rw [State.syncStep_settled h, State.stall, if_pos ht])

/-- Bytes before the first delimiter are discarded (R203). -/
theorem State.settle_hunt {s : State} {junk rest : List Byte} (h : s.rxbuf = junk ++ rest) (hn : flagByte ∉ junk) :
    s.settle = ({ s with rxbuf := rest } : State).settle := by
  induction junk generalizing s with
  | nil => rw [List.nil_append] at h; rw [← h]
  | cons b junk ih =>
    simp only [List.mem_cons, not_or] at hn
    rw [State.settle_again (State.syncStep_hunt h (Ne.symm hn.1))]
    exact ih (s := { s with rxbuf := junk ++ rest }) rfl hn.2

/-- The older of two adjacent delimiters is discarded (R207). -/
theorem State.settle_adjacent {s : State} {rest : List Byte} (h : s.rxbuf = flagByte :: flagByte :: rest) :
    s.settle = ({ s with rxbuf := flagByte :: rest } : State).settle :=
  State.settle_again (State.syncStep_adjacent h)

/-- A run of delimiters is cut to its last one (R207). -/
theorem State.settle_flags {s : State} {n : Nat} {rest : List Byte}
    (h : s.rxbuf = List.replicate (n + 1) flagByte ++ rest) :
    s.settle = ({ s with rxbuf := flagByte :: rest } : State).settle := by
  induction n generalizing s with
  | zero => rw [← List.singleton_append, ← List.replicate_one, ← h]
  | succ n ih =>
    rw [State.settle_adjacent (by simpa [List.replicate_succ] using h)]
    exact ih (s := { s with rxbuf := flagByte :: (List.replicate n flagByte ++ rest) }) (by simp [List.replicate_succ])

/-- A candidate that decodes ends the operation with its frame stored (R210, R211). -/
theorem State.settle_accepts {s : State} {body after : List Byte} {f : Frame}
    (h : s.rxbuf = flagByte :: (body ++ flagByte :: after)) (hne : body ≠ []) (hn : flagByte ∉ body)
    (hd : decodeFrame s.escLegacy (flagByte :: (body ++ [flagByte])) = .ok f) :
    s.settle = ({ s with rxbuf := after }.storeFrame f).correlate f :=
  State.settle_done ((State.syncStep_candidate h hne hn).trans (State.takeCandidate_ok hd))

/-- The first candidate that fails is absorbed, its closing delimiter kept (R212). -/
theorem State.settle_absorbs {s : State} {body after : List Byte} {e : DecodeErr}
    (h : s.rxbuf = flagByte :: (body ++ flagByte :: after)) (hne : body ≠ []) (hn : flagByte ∉ body)
    (hd : decodeFrame s.escLegacy (flagByte :: (body ++ [flagByte])) = .error e) (hr : s.resynced = false) :
    s.settle = ({ s with rxbuf := flagByte :: after, resynced := true, firstErr := some e } : State).settle :=
  State.settle_again ((State.syncStep_candidate h hne hn).trans (State.takeCandidate_first hd hr))

/-- The second candidate that fails ends the operation, its closing delimiter kept (R213). -/
theorem State.settle_surfaces {s : State} {body after : List Byte} {e : DecodeErr}
    (h : s.rxbuf = flagByte :: (body ++ flagByte :: after)) (hne : body ≠ []) (hn : flagByte ∉ body)
    (hd : decodeFrame s.escLegacy (flagByte :: (body ++ [flagByte])) = .error e) (hr : s.resynced = true) :
    s.settle = { s with rxbuf := flagByte :: after }.fail e.code :=
  State.settle_done ((State.syncStep_candidate h hne hn).trans (State.takeCandidate_second hd hr))

/-! ## What settling never touches -/

/-- The fields that the receive phase neither reads nor writes, or only reads. -/
structure State.SameOperands (s t : State) : Prop where
  escLegacy : t.escLegacy = s.escLegacy
  reqAddr : t.reqAddr = s.reqAddr
  reqCmd : t.reqCmd = s.reqCmd
  reqPlen : t.reqPlen = s.reqPlen
  timeout : t.timeout = s.timeout
  wireLen : t.wireLen = s.wireLen
  txpay : t.txpay = s.txpay
  wire : t.wire = s.wire
  txout : t.txout = s.txout
  timer : t.timer = s.timer
  scan : t.scan = s.scan
  inputs : t.inputs = s.inputs
  hostData : t.hostData = s.hostData
  unitOut : t.unitOut = s.unitOut

theorem State.SameOperands.refl (s : State) : s.SameOperands s := by constructor <;> rfl

theorem State.SameOperands.trans {s t u : State} (h : s.SameOperands t) (h' : t.SameOperands u) :
    s.SameOperands u := by
  obtain ⟨a1, a2, a3, a4, a5, a6, a7, a8, a9, a10, a11, a12, a13, a14⟩ := h
  obtain ⟨b1, b2, b3, b4, b5, b6, b7, b8, b9, b10, b11, b12, b13, b14⟩ := h'
  constructor <;> simp [*]

/-- The three ways the receive phase ends (R211, R213, R219), and how it goes on, leave the operands alone. -/
theorem State.syncStep_sameOperands {s s' : State}
    (h : s.syncStep = .again s' ∨ s.syncStep = .done s' ∨ s.syncStep = .waiting s') : s.SameOperands s' := by
  rcases s.syncStep_cases with ⟨b, rest, hB, -, hs⟩ | ⟨rest, hB, hs⟩ | ⟨body, after, hB, hne, -, hs⟩ | ⟨-, hs⟩
  · rw [hs] at h; simp at h; subst h; constructor <;> rfl
  · rw [hs] at h; simp at h; subst h; constructor <;> rfl
  · rw [hs] at h
    cases hd : decodeFrame s.escLegacy (flagByte :: (body ++ [flagByte])) with
    | ok f =>
      rw [State.takeCandidate_ok hd] at h; simp at h; subst h
      unfold State.correlate
      split
      · constructor <;> rfl
      · split <;> constructor <;> rfl
    | error e =>
      cases hr : s.resynced with
      | false => rw [State.takeCandidate_first hd hr] at h; simp at h; subst h; constructor <;> rfl
      | true => rw [State.takeCandidate_second hd hr] at h; simp at h; subst h; constructor <;> rfl
  · rw [hs] at h
    unfold State.stall at h
    split at h <;> (simp at h; subst h; constructor <;> rfl)

theorem State.settle_sameOperands (s : State) : s.SameOperands s.settle :=
  State.settle_induct (P := s.SameOperands) (Q := s.SameOperands)
    (fun _ _ h he => h.trans (State.syncStep_sameOperands (.inl he)))
    (fun _ _ h he => h.trans (State.syncStep_sameOperands (.inr (.inl he))))
    (fun _ _ h he => h.trans (State.syncStep_sameOperands (.inr (.inr he))))
    (State.SameOperands.refl s)

/-- A settled receive phase has ended, or the framer waits (R200, R208). -/
theorem State.settle_ends_or_waits {s : State} (hp : s.phase = .rx) :
    s.settle.phase = .idle ∧ s.settle.busy = false ∨
      s.settle.phase = .rx ∧ s.settle.timer ≠ 0 ∧ rxSettled s.settle.rxbuf = true := by
  refine State.settle_induct (P := fun s => s.phase = .rx)
    (Q := fun t => t.phase = .idle ∧ t.busy = false ∨ t.phase = .rx ∧ t.timer ≠ 0 ∧ rxSettled t.rxbuf = true)
    ?_ ?_ ?_ hp
  · intro s s' hp h
    rcases s.syncStep_cases with ⟨b, rest, hB, -, hs⟩ | ⟨rest, hB, hs⟩ | ⟨body, after, hB, hne, -, hs⟩ | ⟨-, hs⟩
    · rw [hs] at h; cases h; exact hp
    · rw [hs] at h; cases h; exact hp
    · rw [hs] at h
      cases hd : decodeFrame s.escLegacy (flagByte :: (body ++ [flagByte])) with
      | ok f => rw [State.takeCandidate_ok hd] at h; cases h
      | error e =>
        cases hr : s.resynced with
        | false => rw [State.takeCandidate_first hd hr] at h; cases h; exact hp
        | true => rw [State.takeCandidate_second hd hr] at h; cases h
    · rw [hs] at h; unfold State.stall at h; split at h <;> cases h
  · intro s s' hp h
    refine .inl ?_
    rcases s.syncStep_cases with ⟨b, rest, hB, -, hs⟩ | ⟨rest, hB, hs⟩ | ⟨body, after, hB, hne, -, hs⟩ | ⟨-, hs⟩
    · rw [hs] at h; cases h
    · rw [hs] at h; cases h
    · rw [hs] at h
      cases hd : decodeFrame s.escLegacy (flagByte :: (body ++ [flagByte])) with
      | ok f =>
        rw [State.takeCandidate_ok hd] at h; cases h
        unfold State.correlate
        split
        · exact ⟨rfl, rfl⟩
        · split <;> exact ⟨rfl, rfl⟩
      | error e =>
        cases hr : s.resynced with
        | false => rw [State.takeCandidate_first hd hr] at h; cases h
        | true => rw [State.takeCandidate_second hd hr] at h; cases h; exact ⟨rfl, rfl⟩
    · rw [hs] at h; unfold State.stall at h; split at h <;> cases h
      exact ⟨rfl, rfl⟩
  · intro s s' hp h
    refine .inr ?_
    rcases s.syncStep_cases with ⟨b, rest, hB, -, hs⟩ | ⟨rest, hB, hs⟩ | ⟨body, after, hB, hne, -, hs⟩ | ⟨hq, hs⟩
    · rw [hs] at h; cases h
    · rw [hs] at h; cases h
    · rw [hs] at h
      cases hd : decodeFrame s.escLegacy (flagByte :: (body ++ [flagByte])) with
      | ok f => rw [State.takeCandidate_ok hd] at h; cases h
      | error e =>
        cases hr : s.resynced with
        | false => rw [State.takeCandidate_first hd hr] at h; cases h
        | true => rw [State.takeCandidate_second hd hr] at h; cases h
    · rw [hs] at h; unfold State.stall at h; split at h <;> cases h
      rename_i ht
      exact ⟨hp, ht, hq⟩

end Sys2Proof.Machine
end

