-- ==== Sys2Proof/Laws/Wire.lean ====
section
/-! SUPPORT. What a received byte can do, and what XFER can answer. -/

namespace Sys2Proof.Machine

open Config

/-! ## The scan state that an event leaves -/

/-- Retiring the scan keeps it for an unfinished candidate of the receive phase and zeroes it otherwise. -/
theorem State.retireScan_live {s : State} (hp : s.phase = .rx) (hb : bodyStarted s.rxbuf = true) : s.retireScan = s := by
  simp [State.retireScan, hp, hb]

theorem State.retireScan_of_not_rx {s : State} (hp : s.phase ≠ .rx) : s.retireScan = s.clearScan := by
  simp [State.retireScan, hp]

theorem State.retireScan_of_no_body {s : State} (hb : bodyStarted s.rxbuf = false) : s.retireScan = s.clearScan := by
  simp [State.retireScan, hb]

/-- Retiring the scan touches no other field. -/
theorem State.retireScan_eq (s : State) : s.retireScan = { s with scan := s.retireScan.scan } := by
  unfold State.retireScan
  split <;> rfl

/-! ## A received byte -/

/-- The row that a received byte selects does to the scan what one turn of it does: every class at once. -/
theorem exec_decodeReceived (s : State) (b : Byte) :
    exec (decodeReceived s.scan.escPend b) s = .next (s.rxByte b) := by
  have keep : ∀ f g : Scan → Scan, f s.scan = g s.scan → s.receive b f = s.receive b g := by
    intro f g h
    simp only [State.receive, h]
  unfold decodeReceived State.rxByte
  cases hp : s.scan.escPend with
  | true =>
    simp only [if_true, decodeEscaped]
    have hs : lineEffect s.escLegacy b s.scan = s.scan.escaped s.escLegacy (b ^^^ stuffXor) := by
      simp [lineEffect, hp, Scan.readByte]
    split
    · rename_i h; subst h
      exact congrArg _ (keep _ _ (by rw [hs]; cases s.escLegacy <;> rfl))
    split
    · rename_i h; subst h
      exact congrArg _ (keep _ _ (by rw [hs]; cases s.escLegacy <;> rfl))
    split
    · rename_i h; subst h
      exact congrArg _ (keep _ _ (by rw [hs]; cases s.escLegacy <;> rfl))
    split
    · rename_i h; subst h
      exact congrArg _ (keep _ _ (by rw [hs]; cases s.escLegacy <;> rfl))
    · rename_i h1 h2 h3 h4
      have hn : inEscSet s.escLegacy (b ^^^ stuffXor) = false := by
        cases h : inEscSet s.escLegacy (b ^^^ stuffXor) with
        | false => rfl
        | true =>
          have hx : b = b ^^^ stuffXor ^^^ stuffXor := by rw [BitVec.xor_assoc]; simp
          rcases (inEscSet_iff _ _).mp h with e | e | ⟨-, e | e⟩ <;> rw [e] at hx <;> exact absurd hx (by assumption)
      exact congrArg _ (keep _ _ (by rw [hs, Scan.escaped, hn]; rfl))
  | false =>
    simp only [Bool.false_eq_true, if_false, decodeWire]
    split
    · rename_i h; subst h
      exact congrArg _ (keep _ _ (by simp [lineEffect, hp]))
    rename_i h0
    have hs : lineEffect s.escLegacy b s.scan = s.scan.readByte s.escLegacy b := by simp [lineEffect, h0]
    split
    · rename_i h; subst h
      exact congrArg _ (keep _ _ (by rw [hs, Scan.readByte_esc hp]))
    rename_i h1
    have ha : s.scan.readByte s.escLegacy b = s.scan.accept b := Scan.readByte_plain hp h1
    split
    · rename_i h; subst h
      exact congrArg _ (keep _ _ (by rw [hs, ha]))
    split
    · rename_i h; subst h
      exact congrArg _ (keep _ _ (by rw [hs, ha]))
    · exact congrArg _ (keep _ _ (by rw [hs, ha]))

/-- Outside the receive phase a byte is appended and nothing else happens (20_memory.md R72). -/
theorem State.receive_of_not_rx {s : State} (b : Byte) (effect : Scan → Scan) (h : s.phase ≠ .rx) :
    s.receive b effect = { s with rxbuf := s.rxbuf ++ [b], scan := Scan.zero } := by
  unfold State.receive
  rw [if_neg h]
  exact State.retireScan_of_not_rx h

theorem State.rxByte_of_not_rx {s : State} (b : Byte) (h : s.phase ≠ .rx) :
    s.rxByte b = { s with rxbuf := s.rxbuf ++ [b], scan := Scan.zero } := State.receive_of_not_rx b _ h

/-- A byte that is no delimiter behind an opening delimiter joins the candidate, and the framer waits on (43_transport_session.md
R208). -/
theorem State.receive_body {s : State} {body : List Byte} (b : Byte) (effect : Scan → Scan) (hw : s.Waiting)
    (hB : s.rxbuf = flagByte :: body) (hb : b ≠ flagByte) :
    s.receive b effect = { s with rxbuf := s.rxbuf ++ [b], scan := effect s.scan } := by
  obtain ⟨hp, -, ht, hs⟩ := hw
  have hn : flagByte ∉ body := by
    rcases rxSettled_iff.mp hs with h | ⟨body', h, hn⟩
    · rw [hB] at h; cases h
    · rw [hB] at h; cases h; exact hn
  have hq : rxSettled (s.rxbuf ++ [b]) = true :=
    rxSettled_iff.mpr (.inr ⟨body ++ [b], by simp [hB], by simp [hn, Ne.symm hb]⟩)
  have hst : bodyStarted (s.rxbuf ++ [b]) = true := by
    rw [hB]; cases body <;> simp [bodyStarted]
  unfold State.receive
  rw [if_pos hp]
  have hh : s.rxbuf.head? = some flagByte := by rw [hB]; rfl
  simp only [hh, if_true]
  rw [State.settle_quiescent (by exact hq) (by exact ht)]
  exact State.retireScan_live (by exact hp) (by exact hst)

/-- A run of bytes is received byte by byte (20_memory.md R70). -/
@[simp] theorem State.rxBytes_nil (s : State) : s.rxBytes [] = s := rfl

@[simp] theorem State.rxBytes_cons (s : State) (b : Byte) (l : List Byte) :
    s.rxBytes (b :: l) = (s.rxByte b).rxBytes l := rfl

theorem State.rxBytes_append (s : State) (l l' : List Byte) : s.rxBytes (l ++ l') = (s.rxBytes l).rxBytes l' := by
  simp [State.rxBytes]

/-- A run of bytes received outside the receive phase is appended (20_memory.md R72). -/
theorem State.rxBytes_of_not_rx {s : State} {b : Byte} (l : List Byte) (h : s.phase ≠ .rx) :
    s.rxBytes (b :: l) = { s with rxbuf := s.rxbuf ++ b :: l, scan := Scan.zero } := by
  induction l generalizing s b with
  | nil => exact State.rxByte_of_not_rx b h
  | cons c l ih =>
    rw [State.rxBytes_cons, State.rxByte_of_not_rx b h, ih (s := { s with rxbuf := s.rxbuf ++ [b], scan := Scan.zero }) h]
    simp

/-- What waiting with an open candidate leaves to see: no delimiter in its body so far. -/
theorem State.Waiting.no_flag {s : State} {body : List Byte} (hw : s.Waiting) (h : s.rxbuf = flagByte :: body) :
    flagByte ∉ body := by
  rcases rxSettled_iff.mp hw.2.2.2 with h' | ⟨body', h', hn⟩
  · rw [h] at h'; cases h'
  · rw [h] at h'; cases h'; exact hn

/-- A framer that waits goes on waiting with any other RXBUF that holds nothing to act on, and any other scan state. -/
theorem State.Waiting.with_rxbuf {s : State} (hw : s.Waiting) {l : List Byte} (h : rxSettled l = true) (sc : Scan) :
    ({ s with rxbuf := l, scan := sc } : State).Waiting :=
  ⟨hw.1, hw.2.1, hw.2.2.1, h⟩

/-- A run of bytes with no delimiter joins the open candidate, and nothing but the scan state changes with it (R208). -/
theorem State.rxBytes_body {s : State} {body l : List Byte} (hw : s.Waiting) (hB : s.rxbuf = flagByte :: body)
    (hl : flagByte ∉ l) : ∃ sc, s.rxBytes l = { s with rxbuf := flagByte :: (body ++ l), scan := sc } := by
  induction l generalizing s body with
  | nil => exact ⟨s.scan, by rw [List.append_nil, ← hB]; rfl⟩
  | cons b l ih =>
    simp only [List.mem_cons, not_or] at hl
    have hb : s.rxByte b = { s with rxbuf := flagByte :: (body ++ [b]), scan := lineEffect s.escLegacy b s.scan } := by
      rw [State.rxByte, State.receive_body b _ hw hB (Ne.symm hl.1), hB]; rfl
    have hq : rxSettled (flagByte :: (body ++ [b])) = true :=
      rxSettled_iff.mpr (.inr ⟨_, rfl, by simp [hw.no_flag hB, hl.1]⟩)
    obtain ⟨sc, h⟩ := ih (s := { s with rxbuf := flagByte :: (body ++ [b]), scan := lineEffect s.escLegacy b s.scan })
      (hw.with_rxbuf hq _) rfl hl.2
    exact ⟨sc, by rw [State.rxBytes_cons, hb, h]; simp⟩

/-! ## XFER -/

/-- Every way XFER goes on (43_transport_session.md R226). -/
theorem execXfer_cases {s t : State} (h : execXfer s = .next t) :
    s.busy = false ∧
    ((255 < s.reqPlen.toNat ∧ t = s.startXfer.fail .payloadTooLarge) ∨
     (∃ payload, payload.length ≤ 255 ∧ s.reqPayload = some payload ∧
        t = (s.startXfer.transmit (wireOf s.escLegacy s.reqAddr s.reqCmd payload
          (cksumGen s.reqAddr s.reqCmd payload))).settle.openScan.retireScan)) := by
  unfold execXfer at h
  split at h
  · cases h
  rename_i hb
  refine ⟨by simpa using hb, ?_⟩
  split at h
  · rename_i hp
    cases h
    exact .inl ⟨by simpa [State.plenTooLarge] using hp, rfl⟩
  rename_i hp
  have hle : s.reqPlen.toNat ≤ 255 := by simpa [State.plenTooLarge] using hp
  split at h
  · cases h
  rename_i payload hq
  have hl := (State.reqPayload_eq_some.mp hq).1
  rw [encodeFrame_of_le (by omega)] at h
  cases h
  exact .inr ⟨payload, by omega, hq, rfl⟩

/-- Where XFER goes on: an idle block, a payload that is written (R192 to R196). -/
theorem execXfer_of_written {s : State} {payload : List Byte} (hb : s.busy = false) (hl : s.reqPlen.toNat ≤ 255)
    (hq : s.reqPayload = some payload) :
    execXfer s = .next (s.startXfer.transmit (wireOf s.escLegacy s.reqAddr s.reqCmd payload
      (cksumGen s.reqAddr s.reqCmd payload))).settle.openScan.retireScan := by
  have hp := (State.reqPayload_eq_some.mp hq).1
  unfold execXfer
  rw [if_neg (by simp [hb]), if_neg (by simp [State.plenTooLarge_of_le hl]), hq]
  simp only [encodeFrame_of_le (x := s.escLegacy) (addr := s.reqAddr) (cmd := s.reqCmd) (show payload.length ≤ 255 by omega)]

/-! ## Host writes -/

/-- A write that needs an idle block goes on exactly there (30_encoding.md R118 c). -/
theorem whileIdle_eq_next {s s' t : State} : whileIdle s s' = .next t ↔ s.busy = false ∧ t = s' := by
  unfold whileIdle
  cases h : s.busy <;> simp [eq_comm]

end Sys2Proof.Machine
end

