-- ==== Sys2Proof/Tests/Slice0.lean ====
section
/-! SUPPORT. Tests and witnesses. Expected values come from spec/95_test_vectors.md (the vector is named), from the tables of
spec/30_encoding.md, or from hand calculation from the rule named. The witnesses at the end meet the hypotheses of the
statements of Certificates/Slice0/Obligations.lean. -/

namespace Sys2Proof.Tests

open Sys2Proof Sys2Proof.Machine

/-! ## Helpers -/

/-- The outcome is a next state with the property. -/
def nextIs (o : Host.Outcome State Fault Refusal) (p : State → Bool) : Bool :=
  match o with
  | .next t => p t
  | _ => false

/-- The outcome is the refusal. -/
def refusedWith (o : Host.Outcome State Fault Refusal) (r : Refusal) : Bool :=
  match o with
  | .refused r' => decide (r' = r)
  | _ => false

/-- An idle block with a request in its operand registers. -/
def idleWith (addr cmd : Byte) (payload : List Byte) (timeout : Word32) : State :=
  { State.reset with
    reqAddr := addr, reqCmd := cmd, reqPlen := BitVec.ofNat 16 payload.length, txpay := Memory.ofList payload
    timeout := timeout }

/-- The idle block of V-E1: request (00, D0, []). -/
def idle0 : State := idleWith 0x00 0xD0 [] 3

/-- The idle block of V-E1 about to start an XFER, with these bytes in RXBUF. -/
def startWith (rxbuf : List Byte) : State :=
  { idle0 with rxbuf := rxbuf, inputs := [.writeReg 0x00 0x03] }

/-- The framer waiting for the response of `idle0`, with these bytes and this scan state. -/
def waitWith (rxbuf : List Byte) (scan : Scan) : State :=
  { idle0 with busy := true, phase := .rx, timer := 3, rxbuf := rxbuf, scan := scan }

/-- Waiting with RXBUF empty. -/
def wait0 : State := waitWith [] Scan.zero

/-- Waiting behind an opening delimiter and the body bytes. -/
def waitBody (body : List Byte) : State := waitWith (0x7E :: body) (scanBody true body)

/-- `s` after its one failure was absorbed. -/
def resyncedOnce (s : State) : State := { s with resynced := true, firstErr := some .checksum }

/-- An idle block with these bytes in WIRE. -/
def idleWire (w : List Byte) : State :=
  { State.reset with wire := Memory.ofList w, wireLen := BitVec.ofNat 16 w.length }

/-! ## WellFormed: an ill-formed term for each check -/

theorem test_wf_cksumGen_payload_too_long : (Instr.cksumGen 0 0 (List.replicate 256 0)).wellFormed = false := by
  simp only [Instr.wellFormed, List.length_replicate]; decide
theorem test_wf_cksumVfy_too_short : (Instr.cksumVfy [0x00, 0xD0, 0x00]).wellFormed = false := by decide
theorem test_wf_unstuff_delimiter : (Instr.unstuff [0x00, 0x7E]).wellFormed = false := by decide
theorem test_wf_literal_flag : (Instr.literal 0x7E).wellFormed = false := by decide
theorem test_wf_literal_esc : (Instr.literal 0x7D).wellFormed = false := by decide
theorem test_wf_literal_ctl11 : (Instr.literal 0x11).wellFormed = false := by decide
theorem test_wf_literal_ctl13 : (Instr.literal 0x13).wellFormed = false := by decide
theorem test_wf_eInvalid_5E : (Instr.eInvalid 0x5E).wellFormed = false := by decide
theorem test_wf_eInvalid_5D : (Instr.eInvalid 0x5D).wellFormed = false := by decide
theorem test_wf_eInvalid_31 : (Instr.eInvalid 0x31).wellFormed = false := by decide
theorem test_wf_eInvalid_33 : (Instr.eInvalid 0x33).wellFormed = false := by decide
theorem test_wf_frame_payload_too_long : (Instr.frame 0 0 (List.replicate 256 0) 0).wellFormed = false := by
  simp only [Instr.wellFormed, List.length_replicate]; decide

/-! ## Decode: each row's bits, written out from the encoding column of the table (30_encoding.md R91, R103 to R115) -/

theorem test_decode_encode : decode .ctrl [0b00000001] = .ok .encode := by decide
theorem test_decode_decode : decode .ctrl [0b00000010] = .ok .decode := by decide
theorem test_decode_xfer : decode .ctrl [0b00000011] = .ok .xfer := by decide
theorem test_decode_flag : decode .wire [0b01111110] = .ok .flag := by decide
theorem test_decode_esc : decode .wire [0b01111101] = .ok .esc := by decide
theorem test_decode_ctl11 : decode .wire [0b00010001] = .ok .ctl11 := by decide
theorem test_decode_ctl13 : decode .wire [0b00010011] = .ok .ctl13 := by decide
theorem test_decode_literal : decode .wire [0b00110011] = .ok (.literal 0x33) := by decide
theorem test_decode_e5E : decode .escaped [0b01011110] = .ok .e5E := by decide
theorem test_decode_e5D : decode .escaped [0b01011101] = .ok .e5D := by decide
theorem test_decode_e31 : decode .escaped [0b00110001] = .ok .e31 := by decide
theorem test_decode_e33 : decode .escaped [0b00110011] = .ok .e33 := by decide
theorem test_decode_eInvalid : decode .escaped [0b00010001] = .ok (.eInvalid 0x11) := by decide
theorem test_decode_frame :
    decode .frame [0b01111110, 0b00000001, 0b00000010, 0b00000001, 0b10101010, 0b01010001, 0b01111110] =
      .ok (.frame 0x01 0x02 [0xAA] 0x51) := by decide

theorem test_decode_reserved_op : decode .ctrl [0b00000100] = .error .reservedOp := by decide
theorem test_decode_frame_bad_length :
    decode .frame [0x7E, 0x00, 0xD0, 0x01, 0x2E, 0x7E] = .error .lengthField := by decide
theorem test_decode_frame_no_delimiter :
    decode .frame [0x7F, 0x00, 0xD0, 0x00, 0x2F, 0x7E] = .error .noDelimiter := by decide
theorem test_decode_wrong_length : decode .wire [0x00, 0x00] = .error .wrongLength := by decide

/-! ## Table words -/

theorem test_tableWord_xfer : decodeTableWord 8 0x03 = some .xfer := by decide
theorem test_tableWord_frame : decodeTableWord 48 0x7E2F00D0007E = some (.frame 0x00 0xD0 [] 0x2F) := by decide

/-- A placed word is what the next step runs: at reset a received FLAG is buffered (20_memory.md R72). -/
theorem test_withFetchWord_flag :
    nextIs (step (State.reset.withFetchWord 8 0x7E)) (fun t => t.rxbuf == [0x7E] && t.inputs == []) = true := by decide

/-- A placed ENCODE at reset encodes (00, 00, []): V-E2. -/
theorem test_withFetchWord_encode :
    nextIs (step (State.reset.withFetchWord 8 0x01))
      (fun t => t.wire == Memory.ofList [0x7E, 0x00, 0x00, 0x00, 0xFF, 0x7E]) = true := by decide

/-! ## Host operations -/

/-- V-E3: the payload is stuffed and LEN counts unstuffed bytes. -/
theorem test_encode_stuffs_payload :
    nextIs (exec .encode (idleWith 0x00 0xD0 [0x7E, 0x7D] 0)) (fun t =>
      t.wire == Memory.ofList [0x7E, 0x00, 0xD0, 0x02, 0x7D, 0x5E, 0x7D, 0x5D, 0x32, 0x7E] && t.wireLen == 10) = true := by
  decide

/-- V-E24: PayloadTooLarge, WIRE and WIRE_LEN unchanged. -/
theorem test_encode_too_large :
    nextIs (exec .encode { idleWire [0x55] with reqPlen := 0x0100 }) (fun t =>
      t.result == .payloadTooLarge && t.wire == Memory.ofList [0x55] && t.wireLen == 1) = true := by decide

/-- V-D21: the inverse of V-E3. -/
theorem test_decode_unstuffs_payload :
    nextIs (exec .decode (idleWire [0x7E, 0x00, 0xD0, 0x02, 0x7D, 0x5E, 0x7D, 0x5D, 0x32, 0x7E])) (fun t =>
      t.rspCmd == 0xD0 && t.rspLen == 2 && t.rxpay == Memory.ofList [0x7E, 0x7D] && t.rspValid) = true := by decide

/-- V-D15: the checksum is reported before the length. -/
theorem test_decode_checksum_before_length :
    nextIs (exec .decode (idleWire [0x7E, 0x00, 0xD0, 0x05, 0xAA, 0x00, 0x7E])) (fun t =>
      t.result == .checksumMismatch && !t.rspValid) = true := by decide

/-- S16: a stale frame in RXBUF is taken at once; TIMER stays loaded. -/
theorem test_xfer_takes_stale_frame :
    nextIs (exec .xfer { idleWith 0x00 0xD0 [] 5 with rxbuf := [0x7E, 0x00, 0xD0, 0x01, 0xFF, 0x2F, 0x7E] }) (fun t =>
      t.result == .ok && t.rxpay == Memory.ofList [0xFF] && t.rxbuf == [] && t.timer == 5) = true := by decide

/-- S12: with TIMEOUT = 0 the frame is sent and the outcome is Timeout. -/
theorem test_xfer_timeout_zero :
    nextIs (exec .xfer (idleWith 0x00 0xD0 [] 0)) (fun t =>
      t.result == .timeout && t.txout == [0x7E, 0x00, 0xD0, 0x00, 0x2F, 0x7E] && t.phase == .idle) = true := by decide

/-! ## Internal units -/

/-- V-C3: the carry out of the byte is dropped; 80 + 80 with LEN 0. -/
theorem test_cksumGen_drops_carry :
    nextIs (exec (.cksumGen 0x80 0x80 []) State.reset) (fun t => t.unitOut == .byte 0xFF) = true := by decide

/-- V-C9. -/
theorem test_cksumGen_payload :
    nextIs (exec (.cksumGen 0x00 0xD0 [0x00, 0x01, 0x02]) State.reset) (fun t => t.unitOut == .byte 0x29) = true := by
  decide

/-- 95_test_vectors.md 2.1: on 00 D0 00 2F passes. -/
theorem test_cksumVfy_passes :
    nextIs (exec (.cksumVfy [0x00, 0xD0, 0x00, 0x2F]) State.reset) (fun t => t.unitOut == .pass) = true := by decide

/-- 95_test_vectors.md 2.1: on 00 D0 00 2E fails. -/
theorem test_cksumVfy_fails :
    nextIs (exec (.cksumVfy [0x00, 0xD0, 0x00, 0x2E]) State.reset) (fun t => t.unitOut == .fail .checksum) = true := by
  decide

/-- V-S7 at ESC_LEGACY = 1. -/
theorem test_stuff_four_values :
    nextIs (exec (.stuff [0x7E, 0x7D, 0x11, 0x13]) State.reset) (fun t =>
      t.unitOut == .bytes [0x7D, 0x5E, 0x7D, 0x5D, 0x7D, 0x31, 0x7D, 0x33]) = true := by decide

/-- V-S7 at ESC_LEGACY = 0. -/
theorem test_stuff_two_values :
    nextIs (exec (.stuff [0x7E, 0x7D, 0x11, 0x13]) { State.reset with escLegacy := false }) (fun t =>
      t.unitOut == .bytes [0x7D, 0x5E, 0x7D, 0x5D, 0x11, 0x13]) = true := by decide

/-- V-U14 at ESC_LEGACY = 1. -/
theorem test_unstuff_pairs :
    nextIs (exec (.unstuff [0x7D, 0x5E, 0x7D, 0x5D, 0x7D, 0x31, 0x7D, 0x33]) State.reset) (fun t =>
      t.unitOut == .bytes [0x7E, 0x7D, 0x11, 0x13]) = true := by decide

/-- V-U9: a dangling escape. -/
theorem test_unstuff_dangling :
    nextIs (exec (.unstuff [0x00, 0x7D]) State.reset) (fun t => t.unitOut == .fail .unstuffing) = true := by decide

/-! ## Wire byte classes -/

/-- S4 and R207: the second of two adjacent delimiters takes the first one's place. -/
theorem test_flag_adjacent :
    nextIs (exec .flag (waitBody [])) (fun t => t.rxbuf == [0x7E] && !t.resynced) = true := by decide

/-- S9: another command is CommandMismatch, the frame stored. -/
theorem test_flag_closes_other_command :
    nextIs (exec .flag (waitBody [0x00, 0xD1, 0x00, 0x2E])) (fun t =>
      t.result == .commandMismatch && t.rspValid && t.rspCmd == 0xD1 && t.rxbuf == []) = true := by decide

/-- R104. -/
theorem test_esc_sets_pending :
    nextIs (exec .esc (waitBody [0x00])) (fun t => t.scan.escPend && t.scan.inner == [0x00]) = true := by decide

/-- R203: with RXBUF empty in the receive phase a byte is discarded. -/
theorem test_esc_hunted : nextIs (exec .esc wait0) (fun t => t.rxbuf == [] && !t.scan.escPend) = true := by decide

/-- R105: 0x11 is a literal although ESC_LEGACY = 1. -/
theorem test_ctl11_is_inner :
    nextIs (exec .ctl11 (waitBody [])) (fun t => t.scan.inner == [0x11] && t.scan.sum == 0x11) = true := by decide

/-- R106. -/
theorem test_ctl13_is_inner :
    nextIs (exec .ctl13 (waitBody [0x11])) (fun t => t.scan.inner == [0x11, 0x13] && t.scan.sum == 0x24) = true := by
  decide

/-- R107; SUM is modulo 256: FF + 02 = 01. -/
theorem test_literal_sum_wraps :
    nextIs (exec (.literal 0x02) (waitBody [0xFF])) (fun t => t.scan.sum == 0x01 && t.scan.idx == 2) = true := by decide

/-- R108. -/
theorem test_e5E_is_7E :
    nextIs (exec .e5E (waitBody [0x7D])) (fun t => t.scan.inner == [0x7E] && t.rxbuf == [0x7E, 0x7D, 0x5E]) = true := by
  decide

/-- R109. -/
theorem test_e5D_is_7D :
    nextIs (exec .e5D (waitBody [0x7D])) (fun t => t.scan.inner == [0x7D] && !t.scan.escPend) = true := by decide

/-- R110 at ESC_LEGACY = 1. -/
theorem test_e31_is_11 : nextIs (exec .e31 (waitBody [0x7D])) (fun t => t.scan.inner == [0x11]) = true := by decide

/-- R110 at ESC_LEGACY = 0: invalid. -/
theorem test_e31_invalid :
    nextIs (exec .e31 { waitBody [0x7D] with escLegacy := false }) (fun t => t.scan.bad && t.scan.inner == []) = true := by
  decide

/-- R111 at ESC_LEGACY = 1. -/
theorem test_e33_is_13 : nextIs (exec .e33 (waitBody [0x7D])) (fun t => t.scan.inner == [0x13]) = true := by decide

/-- R111 at ESC_LEGACY = 0: invalid. -/
theorem test_e33_invalid :
    nextIs (exec .e33 { waitBody [0x7D] with escLegacy := false }) (fun t => t.scan.bad && t.scan.inner == []) = true := by
  decide

/-- R112: 0x20 exclusive or 0x20 is 0x00, not in the set. -/
theorem test_eInvalid_fails_scan :
    nextIs (exec (.eInvalid 0x20) (waitBody [0x7D])) (fun t => t.scan.bad && t.rxbuf == [0x7E, 0x7D, 0x20]) = true := by
  decide

/-- P3 step 4: a delimiter after ESC closes the candidate, UnstuffingError, the delimiter kept. -/
theorem test_eInvalid_delimiter :
    nextIs (exec (.eInvalid 0x7E) (waitBody [0x7D])) (fun t =>
      t.resynced && t.firstErr == some .unstuffing && t.rxbuf == [0x7E]) = true := by decide

/-- S10: another address, AddressMismatch before CommandMismatch. -/
theorem test_frame_address_first :
    nextIs (exec (.frame 0x01 0xD1 [] 0x2D) wait0) (fun t =>
      t.result == .addressMismatch && t.rspAddr == 0x01 && t.rspValid) = true := by decide

/-- P5 step 2: a wrong checksum is absorbed once, the closing delimiter kept. -/
theorem test_frame_bad_checksum :
    nextIs (exec (.frame 0x00 0xD0 [] 0x2E) wait0) (fun t =>
      t.resynced && t.firstErr == some .checksum && t.rxbuf == [0x7E] && t.phase == .rx) = true := by decide

/-! ## Host accesses, ticks, reset -/

/-- P4 step 3: STATUS is 0x05 in the receive phase (BUSY, PHASE = RX). -/
theorem test_status_while_waiting : statusWord (waitBody [0x00]) = 0x05 := by decide

/-- R118 b. -/
theorem test_ctrl_while_busy : refusedWith (handle (.writeReg 0x00 0x01) wait0) .ctrlWhileBusy = true := by decide

/-- S7: the tick that brings TIMER to 0 ends with Timeout, the partial candidate kept. -/
theorem test_tick_times_out :
    nextIs (handle .tick { waitBody [0x00, 0xD0] with timer := 1 }) (fun t =>
      t.result == .timeout && t.rxbuf == [0x7E, 0x00, 0xD0] && t.timer == 0 && !t.busy) = true := by decide

/-- P4 step 4: reset in mid-exchange. -/
theorem test_reset_mid_exchange :
    nextIs (handle .reset (waitBody [0x00])) (fun t => decide (t = State.reset)) = true := by decide

/-! ## Witnesses: concrete states and operands that meet the hypotheses of each statement, clause by clause -/

/-- 255 payload bytes, the most a frame carries. -/
def payload255 : List Byte := List.replicate 255 0x00

theorem payload255_length : payload255.length = 255 := List.length_replicate

/-- An idle block whose request has the longest payload. -/
def idle255 : State := { idleWith 0x00 0xD0 [] 3 with reqPlen := 255, txpay := Memory.ofList payload255 }

/-- An idle block whose REQ_PLEN is one too large. -/
def idle256 : State := { State.reset with reqPlen := 256 }

theorem inv_wait0 : wait0.Inv := by
  constructor <;> decide

theorem inv_waitBody : (waitBody [0x00, 0x7D]).Inv := by
  constructor <;> decide

theorem waiting_wait0 : wait0.Waiting := by unfold State.Waiting; decide

theorem waiting_waitBody : (waitBody [0x00]).Waiting := by unfold State.Waiting; decide

theorem witness_DecodeOfEncodeIsTheInstruction :
    (Instr.literal 0x00).wellFormed = true ∧ channelOf (.literal 0x00) = some .wire ∧
    (Instr.frame 0x00 0xD0 payload255 0x30).wellFormed = true ∧
    channelOf (.frame 0x00 0xD0 payload255 0x30) = some .frame := by
  simp only [Instr.wellFormed, payload255_length]; decide

theorem witness_DecodedBytesAreTheEncoding :
    decode .frame [0x7E, 0x00, 0xD0, 0x00, 0x2F, 0x7E] = .ok (.frame 0x00 0xD0 [] 0x2F) := by decide

theorem witness_StepRunsTheDecodedInstruction :
    ({ State.reset with inputs := [.writeReg 0x00 0x03] } : State).inputs = .writeReg 0x00 0x03 :: [] ∧
    decode .ctrl [(0x03 : Word32).setWidth 8] = .ok .xfer ∧
    ({ wait0 with inputs := [.rxByte 0x7E] } : State).inputs = .rxByte 0x7E :: [] ∧
    decode (if wait0.scan.escPend then .escaped else .wire) [0x7E] = .ok .flag ∧
    payload255.length ≤ 255 ∧
    ({ wait0 with inputs := [.rx (wireOf true 0x00 0xD0 payload255 0x30)] } : State).inputs =
      .rx (wireOf wait0.escLegacy 0x00 0xD0 payload255 0x30) :: [] ∧
    State.reset.inputs = [] :=
  ⟨rfl, by decide, rfl, by decide, by simp [payload255_length], rfl, rfl⟩

theorem witness_ResetLeavesTheStatedValues :
    (0x0A : Byte) ≤ 0x0A ∧ (0x0A : Byte) ≤ 0x0D ∧ (0x0D : Byte) ≤ 0x0D := by decide

theorem witness_ResetAbandonsAnyOperation :
    ({ waitBody [0x00] with inputs := [.reset] } : State).inputs = .reset :: [] := rfl

theorem witness_RegistersReadAsLaidOut : ({ State.reset with rspValid := true } : State).rspValid = true := rfl

theorem witness_HostReadsHaveNoSideEffect :
    nextIs (handle (.readReg 0x01) wait0) (fun _ => true) = true ∧
    nextIs (handle (.readBuf .wire 0) (idleWire [0x55])) (fun _ => true) = true := by decide

/-- Each buffer's last byte of its range, or the last below RSP_LEN, holds a value. -/
theorem witness_HostReadsHaveNoSideEffect_buffer_bytes :
    254 < 255 ∧ ({ State.reset with txpay := [(254, 0x5A)] } : State).txpay.read 254 = some 0x5A ∧
    518 < 519 ∧ ({ State.reset with wire := [(518, 0x5A)] } : State).wire.read 518 = some 0x5A ∧
    (let s : State := { State.reset with rspValid := true, rspLen := 255, rxpay := [(254, 0x5A)] }
     s.rspValid = true ∧ 254 < s.rspLen.toNat ∧ s.rxpay.read 254 = some 0x5A) := by decide

theorem witness_IdleHostWritesReachTheirTarget :
    State.reset.busy = false ∧ (519 : Word16).toNat ≤ 519 ∧ 254 < 255 ∧ 518 < 519 := by decide

theorem witness_ReservedAndReadOnlyAccesses :
    (0x0E : Byte) ≤ 0x0E ∧ (0x0E : Byte) ≤ 0xFF ∧ (0x0D : Byte) ∈ [(0x01 : Byte), 0x03, 0x04, 0x0A, 0x0B, 0x0C, 0x0D] ∧
    State.reset.busy = false ∧ 254 < 255 := by decide

theorem witness_ReservedHostEncodingsAreRefused :
    (0x00 : Byte) = (0x00 : Word32).setWidth 8 ∧ (0x04 : Byte) ≤ (0x04 : Word32).setWidth 8 ∧
    (0x04 : Byte) ≤ (0xFF : Word32).setWidth 8 ∧ wait0.busy = true ∧
    ((0x01 : Word32).setWidth 8 : Byte) ∈ [(0x01 : Byte), 0x02, 0x03] ∧
    (0x09 : Byte) ∈ [(0x02 : Byte), 0x05, 0x06, 0x07, 0x08, 0x09] ∧ 254 < 255 ∧ 518 < 519 := by decide

theorem witness_WireLenAboveMaximumIsRefused : State.reset.busy = false ∧ 519 < (520 : Word16).toNat := by decide

theorem witness_IndexOutsideABufferFaults :
    (match Buf.txpay with | .wire => 519 | _ => 255) ≤ 255 ∧ (match Buf.wire with | .wire => 519 | _ => 255) ≤ 519 := by
  decide

/-- One state for each clause, at the last byte that is read. -/
theorem witness_ValuelessReadsAreRefused :
    (let s : State := { State.reset with reqPlen := 255 }
     s.busy = false ∧ s.reqPlen.toNat ≤ 255 ∧ 254 < s.reqPlen.toNat ∧ s.txpay.read 254 = none) ∧
    (let s : State := { State.reset with wireLen := 519 }
     s.busy = false ∧ 518 < s.wireLen.toNat ∧ s.wire.read 518 = none) ∧
    (State.reset.rspValid = false ∧ (0x0A : Byte) ≤ 0x0D ∧ (0x0D : Byte) ≤ 0x0D ∧ 254 < 255) ∧
    (let s : State := { State.reset with rspValid := true }
     s.rspValid = true ∧ s.rspLen.toNat ≤ 0 ∧ 0 < 255) ∧
    State.reset.txpay.read 254 = none ∧ State.reset.wire.read 518 = none := by decide

theorem witness_ChecksumLaws : [(0x01 : Byte), 0x02].Perm [0x02, 0x01] ∧ (0x01 : Byte) ≠ 0 :=
  ⟨List.Perm.swap _ _ _, by decide⟩

theorem witness_CksumGenHandsBackTheChecksum : payload255.length ≤ 255 := by simp [payload255_length]

theorem witness_CksumVfyPassesExactlyOnARightChecksum : 3 ≤ [(0x00 : Byte), 0xD0, 0x00].length := by decide

/-- An ESC in stuffed bytes, and a stuffing at ESC_LEGACY = 1. -/
theorem witness_StuffedBytesHoldOnlyEscapePairs : stuff true [0x00, 0x11] = [0x00] ++ 0x7D :: [0x31] := by decide

theorem witness_UnstuffReadsByteClasses : (0x7C : Byte) ≠ 0x7D ∧ unstuff true [0x7D, 0x5E] = .ok [0x7E] := by decide

theorem witness_DanglingEscapeFails : unstuff true [0x00] = .ok [0x00] := by decide

theorem witness_UnstuffHandsBackTheInnerBytes :
    (0x7E : Byte) ∉ [(0x7D : Byte), 0x5E] ∧ unstuff State.reset.escLegacy [0x7D, 0x5E] = .ok [0x7E] ∧
    (0x7E : Byte) ∉ [(0x7D : Byte), 0x7D] ∧ unstuff State.reset.escLegacy [0x7D, 0x7D] = .error .unstuffing := by decide

theorem witness_EncodeFunction : payload255.length ≤ 255 ∧ 255 < (0x00 :: payload255).length := by
  simp [payload255_length]

/-- V-E6: the checksum is stuffed. -/
theorem witness_EncodedFrameShape :
    encodeFrame true 0x00 0xEE [] = .ok [0x7E, 0x00, 0xEE, 0x00, 0x7D, 0x31, 0x7E] := by decide

theorem request_idle255 :
    idle255.busy = false ∧ idle255.reqPlen.toNat ≤ 255 ∧ payload255.length = idle255.reqPlen.toNat ∧
    (∀ i, i < payload255.length → idle255.txpay.read i = payload255[i]?) ∧
    ∃ w, encodeFrame idle255.escLegacy idle255.reqAddr idle255.reqCmd payload255 = .ok w := by
  refine ⟨rfl, by decide, by rw [payload255_length]; rfl, fun i _ => ?_, ?_⟩
  · show (Memory.ofList payload255).read i = _
    rw [Memory.read_ofList]
  · unfold encodeFrame
    rw [if_neg (by rw [payload255_length]; decide)]
    exact ⟨_, rfl⟩

theorem witness_EncodeOperation :
    (∃ w, encodeFrame idle255.escLegacy idle255.reqAddr idle255.reqCmd payload255 = .ok w) ∧
    idle256.busy = false ∧ 255 < idle256.reqPlen.toNat := ⟨request_idle255.2.2.2.2, by decide⟩

theorem witness_DecodeFunction :
    [(0x7E : Byte)].length < 2 ∧ (0x7E : Byte) ∈ [(0x7E : Byte), 0x00, 0x7E, 0x7E].tail.dropLast ∧
    [(0x7F : Byte), 0x7E].head? ≠ some 0x7E ∧ [(0x7E : Byte), 0x7F].getLast? ≠ some 0x7E ∧
    (0x7E : Byte) ∉ [(0x00 : Byte), 0xD0, 0x00, 0x2F] := by decide

theorem witness_LongestAcceptedFrame :
    decodeFrame true [0x7E, 0x00, 0xD0, 0x00, 0x2F, 0x7E] = .ok ⟨0x00, 0xD0, [], true⟩ := by decide

theorem witness_DecodeOperation :
    (let s := idleWire [0x7E, 0x00, 0xD0, 0x00, 0x2F, 0x7E]
     s.busy = false ∧ 6 = s.wireLen.toNat ∧
     (∀ i, i < 6 → s.wire.read i = [(0x7E : Byte), 0x00, 0xD0, 0x00, 0x2F, 0x7E][i]?) ∧
     decodeFrame s.escLegacy [0x7E, 0x00, 0xD0, 0x00, 0x2F, 0x7E] = .ok ⟨0x00, 0xD0, [], true⟩) ∧
    (let s := idleWire []
     s.busy = false ∧ 0 = s.wireLen.toNat ∧ decodeFrame s.escLegacy [] = .error .framing) := by decide

theorem witness_CodecRoundTrip :
    encodeFrame true 0x00 0x11 [] = .ok [0x7E, 0x00, 0x7D, 0x31, 0x00, 0xEE, 0x7E] ∧
    encodeFrame false 0x00 0x11 [] = .ok [0x7E, 0x00, 0x11, 0x00, 0xEE, 0x7E] ∧
    decodeFrame true [0x7E, 0x00, 0x7D, 0x31, 0x00, 0xEE, 0x7E] = .ok ⟨0x00, 0x11, [], true⟩ ∧
    ((0x11 : Byte) ∉ [(0x7E : Byte), 0x00, 0x7D, 0x31, 0x00, 0xEE, 0x7E] ∧
     (0x13 : Byte) ∉ [(0x7E : Byte), 0x00, 0x7D, 0x31, 0x00, 0xEE, 0x7E]) := by decide

/-- The first bit of the frame and the last. -/
theorem witness_SingleBitErrorsAreDetected :
    encodeFrame true 0x00 0xD0 [] = .ok [0x7E, 0x00, 0xD0, 0x00, 0x2F, 0x7E] ∧
    [(0x7E : Byte), 0x00, 0xD0, 0x00, 0x2F, 0x7E][0]? = some 0x7E ∧ 0 < 8 ∧
    [(0x7E : Byte), 0x00, 0xD0, 0x00, 0x2F, 0x7E][5]? = some 0x7E ∧ 7 < 8 := by decide

theorem witness_HostEncodeThenDecodeReturnsTheRequest :
    idle255.busy = false ∧ idle255.reqPlen.toNat ≤ 255 ∧ payload255.length = idle255.reqPlen.toNat ∧
    (∀ i, i < payload255.length → idle255.txpay.read i = payload255[i]?) :=
  ⟨request_idle255.1, request_idle255.2.1, request_idle255.2.2.1, request_idle255.2.2.2.1⟩

theorem witness_XferPayloadTooLarge : idle256.busy = false ∧ 255 < idle256.reqPlen.toNat := by decide

theorem witness_XferSendsOneFrame :
    idle255.busy = false ∧ idle255.reqPlen.toNat ≤ 255 ∧ payload255.length = idle255.reqPlen.toNat ∧
    (∀ i, i < payload255.length → idle255.txpay.read i = payload255[i]?) ∧
    ∃ w, encodeFrame idle255.escLegacy idle255.reqAddr idle255.reqCmd payload255 = .ok w := request_idle255

/-- The request; both values of TIMEOUT; RXBUF empty, with bytes to discard alone (S4, S17), and with an unfinished body
(S8's leftover). -/
theorem witness_XferWithNothingBuffered :
    idle0.busy = false ∧ idle0.reqPlen.toNat ≤ 255 ∧ 0 = idle0.reqPlen.toNat ∧
    encodeFrame idle0.escLegacy idle0.reqAddr idle0.reqCmd [] = .ok [0x7E, 0x00, 0xD0, 0x00, 0x2F, 0x7E] ∧
    idle0.timeout ≠ 0 ∧ ({ idle0 with timeout := 0 } : State).timeout = 0 ∧
    idle0.rxbuf = [] ++ List.replicate 0 0x7E ++ [] ∧
    (0x7E : Byte) ∉ [(0x2F : Byte)] ∧ (0x7E : Byte) ∉ [(0x00 : Byte), 0xD0] ∧
    (startWith [0x2F, 0x7E]).rxbuf = [0x2F] ++ List.replicate 1 0x7E ++ [] ∧
    (startWith [0x7E, 0x7E, 0x7E]).rxbuf = [] ++ List.replicate 3 0x7E ++ [] ∧
    (startWith [0x7E, 0x00, 0xD0]).rxbuf = [] ++ List.replicate 1 0x7E ++ [0x00, 0xD0] := by decide

/-- R200: `2F 7E 7E` and `7E 7E 7E` settle to the last delimiter, nothing spent; `AA` is discarded. -/
theorem witness_XferWithNothingBuffered_discards :
    nextIs (exec .xfer (startWith [0x2F, 0x7E, 0x7E])) (fun t =>
      t.rxbuf == [0x7E] && t.phase == .rx && !t.resynced && t.firstErr == none) = true ∧
    nextIs (exec .xfer (startWith [0x7E, 0x7E, 0x7E])) (fun t => t.rxbuf == [0x7E] && t.phase == .rx) = true ∧
    nextIs (exec .xfer { startWith [0xAA] with timeout := 0 }) (fun t =>
      t.rxbuf == [] && t.result == .timeout && t.firstErr == none) = true := by decide

/-- A failed candidate, a run of delimiters and an unfinished body; R212 and R221 at both values of TIMEOUT. -/
theorem witness_XferWithNothingBuffered_one_failure :
    decodeFrame idle0.escLegacy (0x7E :: ([0x00] ++ [0x7E])) = .error .framing ∧
    (startWith [0x7E, 0x00, 0x7E]).rxbuf =
      [] ++ List.replicate (0 + 1) 0x7E ++ [0x00] ++ List.replicate (0 + 1) 0x7E ++ [] ∧
    (startWith [0xAA, 0x7E, 0x7E, 0x00, 0x7E, 0x7E, 0xD0]).rxbuf =
      [0xAA] ++ List.replicate (1 + 1) 0x7E ++ [0x00] ++ List.replicate (1 + 1) 0x7E ++ [0xD0] ∧
    nextIs (exec .xfer (startWith [0xAA, 0x7E, 0x7E, 0x00, 0x7E, 0x7E, 0xD0])) (fun t =>
      t.rxbuf == [0x7E, 0xD0] && t.phase == .rx && t.resynced && t.firstErr == some .framing) = true ∧
    nextIs (exec .xfer { startWith [0x7E, 0x00, 0x7E] with timeout := 0 }) (fun t =>
      t.rxbuf == [0x7E] && t.result == .timeout && t.resynced && t.firstErr == some .framing && !t.rspValid) = true := by
  decide

theorem witness_XferTakesABufferedFrame :
    (let s : State := { idle0 with rxbuf := [0xAA] ++ [0x7E, 0x01, 0xD0, 0x00, 0x2E, 0x7E] ++ [0x7E] }
     s.busy = false ∧ s.reqPlen.toNat = 0 ∧
     encodeFrame s.escLegacy s.reqAddr s.reqCmd [] = .ok [0x7E, 0x00, 0xD0, 0x00, 0x2F, 0x7E] ∧
     (0x7E : Byte) ∉ [(0xAA : Byte)] ∧ encodeFrame s.escLegacy 0x01 0xD0 [] = .ok [0x7E, 0x01, 0xD0, 0x00, 0x2E, 0x7E] ∧
     s.rxbuf = [0xAA] ++ [0x7E, 0x01, 0xD0, 0x00, 0x2E, 0x7E] ++ [0x7E]) := by decide

theorem witness_XferIgnoresWire : nextIs (exec .xfer idle0) (fun _ => true) = true := by decide

theorem witness_TicksRunTheTimerDown : wait0.Inv ∧ wait0.phase = .rx ∧ 2 < wait0.timer.toNat ∧ State.reset.phase ≠ .rx :=
  ⟨inv_wait0, by decide⟩

theorem witness_EveryXferEndsWhileTicksCome :
    wait0.Inv ∧ wait0.phase = .rx ∧
    (∀ e ∈ [Input.tick, .rxByte 0x7E, .tick, .tick], e = .tick ∨ ∃ b, e = .rxByte b) ∧
    wait0.timer.toNat ≤ [Input.tick, .rxByte 0x7E, .tick, .tick].count .tick :=
  ⟨inv_wait0, by decide, by simp, by decide⟩

theorem witness_BytesReceivedOutsideTheReceivePhase :
    channelOf .flag = some .wire ∧ encode .flag = [0x7E] ∧ channelOf (.eInvalid 0x7E) = some .escaped ∧
    encode (.eInvalid 0x7E) = [0x7E] ∧ State.reset.phase ≠ .rx := by decide

theorem witness_HuntDiscardsBytes :
    channelOf .esc = some .wire ∧ encode .esc = [0x7D] ∧ (0x7D : Byte) ≠ 0x7E ∧ wait0.Waiting ∧ wait0.rxbuf = [] :=
  ⟨rfl, rfl, by decide, waiting_wait0, rfl⟩

theorem witness_LiteralClassesAreInnerBytes :
    (waitBody [0x00]).Waiting ∧ (waitBody [0x00]).rxbuf = 0x7E :: [0x00] ∧ (waitBody [0x00]).scan.bad = false ∧
    (waitBody [0x00]).scan.escPend = false ∧ (Instr.literal 0x7F).wellFormed = true :=
  ⟨waiting_waitBody, by decide⟩

theorem witness_EscSetsEscPend :
    (waitBody [0x00]).Waiting ∧ (waitBody [0x00]).rxbuf = 0x7E :: [0x00] ∧ (waitBody [0x00]).scan.bad = false ∧
    (waitBody [0x00]).scan.escPend = false := ⟨waiting_waitBody, by decide⟩

/-- An ESC is pending at either value of ESC_LEGACY; 0x7D is an invalid escaped byte. -/
theorem witness_EscapedClassesStandForTheirBytes :
    (waitBody [0x00, 0x7D]).Waiting ∧ (waitBody [0x00, 0x7D]).rxbuf = 0x7E :: [0x00, 0x7D] ∧
    (waitBody [0x00, 0x7D]).scan.bad = false ∧ (waitBody [0x00, 0x7D]).scan.escPend = true ∧
    (waitBody [0x00, 0x7D]).escLegacy = true ∧ ({ waitBody [0x00, 0x7D] with escLegacy := false } : State).Waiting ∧
    (Instr.eInvalid 0x7D).wellFormed = true ∧ (0x7D : Byte) ≠ 0x7E := by
  unfold State.Waiting; decide

theorem witness_InvalidEscapeFailsTheFrame :
    (0x7E : Byte) ∉ [(0x00 : Byte)] ++ 0x20 :: [0xFF] ∧ unstuff true [0x00] = .ok [0x00] ∧
    inEscSet true ((0x20 : Byte) ^^^ 0x20) = false := by decide

theorem witness_FlagOpensACandidate :
    wait0.Waiting ∧ wait0.rxbuf = [] ∧ (waitBody []).Waiting ∧ (waitBody []).rxbuf = [0x7E] := by
  unfold State.Waiting; decide

theorem witness_FlagClosesAnAcceptedCandidate :
    (waitBody [0x00, 0xD0, 0x00, 0x2F]).Waiting ∧ (waitBody [0x00, 0xD0, 0x00, 0x2F]).rxbuf = 0x7E :: [0x00, 0xD0, 0x00, 0x2F] ∧
    decodeFrame true (0x7E :: ([0x00, 0xD0, 0x00, 0x2F] ++ [0x7E])) = .ok ⟨0x00, 0xD0, [], true⟩ := by
  unfold State.Waiting; decide

theorem witness_FlagClosesAFailedCandidate :
    (waitBody [0x00]).Waiting ∧ (waitBody [0x00]).rxbuf = 0x7E :: [0x00] ∧
    decodeFrame true (0x7E :: ([0x00] ++ [0x7E])) = .error .framing ∧ (waitBody [0x00]).resynced = false ∧
    (resyncedOnce (waitBody [0x00])).Waiting ∧ (resyncedOnce (waitBody [0x00])).resynced = true := by
  unfold State.Waiting; decide

/-- As the first failure of the invocation and as the second. -/
theorem witness_DelimiterAfterEscFailsTheCandidate :
    (waitBody [0x00, 0x7D]).Inv ∧ (waitBody [0x00, 0x7D]).phase = .rx ∧ (waitBody [0x00, 0x7D]).scan.escPend = true ∧
    (waitBody [0x00, 0x7D]).resynced = false ∧
    (resyncedOnce (waitBody [0x00, 0x7D])).Inv ∧ (resyncedOnce (waitBody [0x00, 0x7D])).phase = .rx ∧
    (resyncedOnce (waitBody [0x00, 0x7D])).scan.escPend = true ∧ (resyncedOnce (waitBody [0x00, 0x7D])).resynced = true :=
  ⟨inv_waitBody, by decide, by decide, by decide, by constructor <;> decide, by decide⟩

/-- Both ways to wait, both checksums, both retries, and an idle block. -/
theorem witness_ReceivedFrame :
    payload255.length ≤ 255 ∧ wait0.Waiting ∧ wait0.rxbuf = [] ∧ (waitBody []).Waiting ∧ (waitBody []).rxbuf = [0x7E] ∧
    (0x30 : Byte).toNat = 255 - ((0x00 : Byte).toNat + (0xD0 : Byte).toNat + payload255.length + 0) % 256 ∧
    ¬ (0x31 : Byte).toNat = 255 - ((0x00 : Byte).toNat + (0xD0 : Byte).toNat + payload255.length + 0) % 256 ∧
    wait0.resynced = false ∧ (resyncedOnce wait0).Waiting ∧ (resyncedOnce wait0).resynced = true ∧
    State.reset.phase ≠ .rx := by
  refine ⟨by simp [payload255_length], waiting_wait0, rfl, by unfold State.Waiting; decide, rfl,
    by rw [payload255_length]; decide, by rw [payload255_length]; decide, rfl, by unfold State.Waiting; decide, rfl,
    by decide⟩

/-- Behind an unfinished candidate: one whose body decodes, and a truncated one, before and after the retry. -/
theorem witness_ReceivedFrame_behind_a_body :
    (waitBody [0x00, 0xD0, 0x00, 0x2F]).Waiting ∧
    (waitBody [0x00, 0xD0, 0x00, 0x2F]).rxbuf = 0x7E :: [0x00, 0xD0, 0x00, 0x2F] ∧
    decodeFrame true (0x7E :: ([0x00, 0xD0, 0x00, 0x2F] ++ [0x7E])) = .ok ⟨0x00, 0xD0, [], true⟩ ∧
    (waitBody [0x00]).Waiting ∧ (waitBody [0x00]).rxbuf = 0x7E :: [0x00] ∧ (waitBody [0x00]).resynced = false ∧
    (resyncedOnce (waitBody [0x00])).Waiting ∧ (resyncedOnce (waitBody [0x00])).resynced = true ∧
    decodeFrame true (0x7E :: ([0x00] ++ [0x7E])) = .error .framing := by
  unfold State.Waiting; decide

/-- One damaged frame of each failure: truncated, an invalid escape, a wrong CHK, a wrong LEN. -/
theorem witness_OneDamagedFrameIsSurvivedTwoAreNot :
    wait0.Waiting ∧ wait0.rxbuf = [] ∧ wait0.resynced = false ∧
    encodeFrame wait0.escLegacy wait0.reqAddr wait0.reqCmd [] = .ok [0x7E, 0x00, 0xD0, 0x00, 0x2F, 0x7E] ∧
    (∀ body ∈ [[(0x00 : Byte)], [0x7D, 0x00], [0x00, 0xD0, 0x00, 0x2E], [0x00, 0xD0, 0x01, 0x2E]],
      body ≠ [] ∧ (0x7E : Byte) ∉ body) ∧
    decodeFrame wait0.escLegacy (0x7E :: ([0x00] ++ [0x7E])) = .error .framing ∧
    decodeFrame wait0.escLegacy (0x7E :: ([0x7D, 0x00] ++ [0x7E])) = .error .unstuffing ∧
    decodeFrame wait0.escLegacy (0x7E :: ([0x00, 0xD0, 0x00, 0x2E] ++ [0x7E])) = .error .checksum ∧
    decodeFrame wait0.escLegacy (0x7E :: ([0x00, 0xD0, 0x01, 0x2E] ++ [0x7E])) = .error .length :=
  ⟨waiting_wait0, by decide⟩

theorem witness_EveryStepKeepsTheInvariant :
    ({ wait0 with inputs := [.tick] } : State).Inv ∧
    nextIs (step { wait0 with inputs := [.tick] }) (fun t => t.timer == 2) = true := by
  refine ⟨?_, by decide⟩
  constructor <;> decide

/-- Into the receive phase by XFER, and out of it by a response. -/
theorem witness_PhaseMovesOnlyAsStated :
    ({ idle0 with inputs := [.writeReg 0x00 0x03] } : State).Inv ∧
    nextIs (step { idle0 with inputs := [.writeReg 0x00 0x03] }) (fun t => t.phase == .rx) = true ∧
    ({ wait0 with inputs := [.rx [0x7E, 0x00, 0xD0, 0x00, 0x2F, 0x7E]] } : State).Inv ∧
    nextIs (step { wait0 with inputs := [.rx [0x7E, 0x00, 0xD0, 0x00, 0x2F, 0x7E]] }) (fun t =>
      t.phase == .idle && t.result == .ok) = true := by
  refine ⟨?_, by decide, ?_, by decide⟩ <;> constructor <;> decide

theorem witness_OnlyTheStartOfXferTransmits :
    nextIs (step { idle0 with inputs := [.writeReg 0x00 0x03] }) (fun t =>
      t.txout == [0x7E, 0x00, 0xD0, 0x00, 0x2F, 0x7E]) = true := by decide

theorem witness_ResultIsHeldWhileBusy :
    nextIs (step { idle0 with result := .timeout, inputs := [.writeReg 0x00 0x03] }) (fun t =>
      t.busy && t.result == .timeout) = true := by decide

theorem witness_ResponseIsValidExactlyAfterADecodedFrame :
    wait0.Inv ∧ ({ wait0 with inputs := [.rx [0x7E, 0x00, 0xD1, 0x00, 0x2E, 0x7E]] } : State).phase = .rx ∧
    nextIs (step { wait0 with inputs := [.rx [0x7E, 0x00, 0xD1, 0x00, 0x2E, 0x7E]] }) (fun t =>
      t.phase == .idle && t.rspValid && t.result == .commandMismatch) = true := ⟨inv_wait0, by decide⟩

/-- A truncated frame, then a good one: the XFER ends with it in the step that starts it. -/
theorem witness_ResponseIsValid_after_one_buffered_failure :
    (startWith ([0x7E, 0x00] ++ [0x7E, 0x00, 0xD0, 0x00, 0x2F, 0x7E])).Inv ∧
    nextIs (step (startWith ([0x7E, 0x00] ++ [0x7E, 0x00, 0xD0, 0x00, 0x2F, 0x7E]))) (fun t =>
      t.phase == .idle && t.rspValid && t.result == .ok && t.firstErr == some .framing && t.rxbuf == []) = true := by
  refine ⟨?_, by decide⟩
  constructor <;> decide

/-- A truncated frame, then one with a wrong CHK: the XFER ends with the second failure in the step that starts it. -/
theorem witness_ResponseIsValid_after_two_buffered_failures :
    (startWith ([0x7E, 0x00] ++ [0x7E, 0x00, 0xD0, 0x00, 0x2E, 0x7E])).Inv ∧
    nextIs (step (startWith ([0x7E, 0x00] ++ [0x7E, 0x00, 0xD0, 0x00, 0x2E, 0x7E]))) (fun t =>
      t.phase == .idle && !t.rspValid && t.result == .checksumMismatch && t.firstErr == some .framing &&
        t.rxbuf == [0x7E]) = true := by
  refine ⟨?_, by decide⟩
  constructor <;> decide

/-- The hypotheses of the two clauses on buffered failures: the request is encodable, the bodies do not decode. -/
theorem witness_ResponseIsValid_buffered_clauses :
    idle0.busy = false ∧ idle0.reqPlen.toNat ≤ 255 ∧ 0 = idle0.reqPlen.toNat ∧
    encodeFrame idle0.escLegacy idle0.reqAddr idle0.reqCmd [] = .ok [0x7E, 0x00, 0xD0, 0x00, 0x2F, 0x7E] ∧
    (0x7E : Byte) ∉ [(0x00 : Byte)] ∧ decodeFrame idle0.escLegacy (0x7E :: ([0x00] ++ [0x7E])) = .error .framing ∧
    (0x7E : Byte) ∉ [(0x00 : Byte), 0xD0, 0x00, 0x2E] ∧
    decodeFrame idle0.escLegacy (0x7E :: ([0x00, 0xD0, 0x00, 0x2E] ++ [0x7E])) = .error .checksum ∧
    (startWith ([0x7E, 0x00] ++ [0x7E, 0x00, 0xD0, 0x00, 0x2F, 0x7E])).rxbuf =
      0x7E :: ([0x00] ++ []) ++ [0x7E, 0x00, 0xD0, 0x00, 0x2F, 0x7E] ++ [] ∧
    (startWith ([0x7E, 0x00] ++ [0x7E, 0x00, 0xD0, 0x00, 0x2E, 0x7E])).rxbuf =
      0x7E :: ([0x00] ++ []) ++ 0x7E :: ([0x00, 0xD0, 0x00, 0x2E] ++ 0x7E :: []) := by decide

theorem witness_TheEnvironmentIsNeverRefused :
    ({ State.reset with inputs := [.rxByte 0x00] } : State).inputs = .rxByte 0x00 :: [] ∧
    ({ wait0 with inputs := [.rx []] } : State).inputs = .rx [] :: [] ∧
    ({ wait0 with inputs := [.tick] } : State).inputs = .tick :: [] ∧
    ({ wait0 with inputs := [.reset] } : State).inputs = .reset :: [] := ⟨rfl, rfl, rfl, rfl⟩

end Sys2Proof.Tests
end

/-! ## UNSTUFF, one byte class at a time, and UNSTUFF behind STUFF -/

namespace Sys2Proof.Machine

open Config

theorem unstuff_cons_of_ne_esc (y : Bool) {b : Byte} (hb : b ≠ escByte) (rest : List Byte) :
    unstuff y (b :: rest) = (unstuff y rest).map (b :: ·) := by
  have hread : Scan.zero.readByte y b = Scan.zero.accept b := Scan.readByte_plain rfl hb
  calc unstuff y (b :: rest)
      = (rest.foldl (Scan.readByte y) (Scan.zero.accept b)).result := by
        rw [unstuff, scanBody, List.foldl_cons, hread]
    _ = (unstuff y rest).map (b :: ·) := scan_result_from rfl rfl rest

/-- An ESC with nothing behind it (41_stuffing.md R146). -/
theorem unstuff_esc_alone (y : Bool) : unstuff y [escByte] = .error .unstuffing := rfl

theorem unstuff_esc_cons (y : Bool) (e : Byte) (rest : List Byte) :
    unstuff y (escByte :: e :: rest) =
      if inEscSet y (e ^^^ stuffXor) then (unstuff y rest).map ((e ^^^ stuffXor) :: ·) else .error .unstuffing := by
  have hread : unstuff y (escByte :: e :: rest) =
      (rest.foldl (Scan.readByte y) (Scan.zero.escape.escaped y (e ^^^ stuffXor))).result := rfl
  rw [hread, Scan.escaped]
  split
  · exact scan_result_from rfl rfl rest
  · rw [scan_foldl_bad rfl]; rfl

/-- UNSTUFF fails with UnstuffingError only. -/
theorem unstuff_eq_error {y : Bool} {body : List Byte} {e : DecodeErr} (h : unstuff y body = .error e) :
    e = .unstuffing := by
  unfold unstuff Scan.result at h
  split at h
  · exact (Except.error.inj h).symm
  · cases h

theorem xor_stuffXor_cancel (v : Byte) : v ^^^ stuffXor ^^^ stuffXor = v := by
  rw [BitVec.xor_assoc, BitVec.xor_self, BitVec.xor_zero]

/-- The wire bytes of one stuffed byte `v` are read back as `v`, or fail where `v` is escaped at `x` and not at `y`
(41_stuffing.md R147). -/
theorem unstuff_stuff1_append (x y : Bool) (v : Byte) (rest : List Byte) :
    unstuff y (stuff1 x v ++ rest) =
      if inEscSet x v && !inEscSet y v then .error .unstuffing else (unstuff y rest).map (v :: ·) := by
  cases hx : inEscSet x v with
  | true =>
    rw [stuff1_of_mem hx, List.cons_append, List.cons_append, List.nil_append, unstuff_esc_cons, xor_stuffXor_cancel]
    cases inEscSet y v <;> simp
  | false =>
    have hv : v ≠ escByte := by
      rintro rfl
      exact absurd ((inEscSet_iff x _).mpr (.inr (.inl rfl))) (by simp [hx])
    rw [stuff1_of_not_mem hx, List.cons_append, List.nil_append, unstuff_cons_of_ne_esc y hv]
    simp

theorem unstuff_stuff1_append_eq_ok {x y : Bool} {v : Byte} {rest u : List Byte}
    (h : unstuff y (stuff1 x v ++ rest) = .ok u) : ∃ u', u = v :: u' ∧ unstuff y rest = .ok u' := by
  rw [unstuff_stuff1_append] at h
  split at h
  · cases h
  · cases hr : unstuff y rest with
    | error e => rw [hr] at h; cases h
    | ok u' => rw [hr] at h; cases h; exact ⟨u', rfl, rfl⟩

/-- What is stuffed at one configuration and read at the same or another is read back unchanged, or fails. -/
theorem unstuff_stuff_eq_ok {x y : Bool} {l u : List Byte} (h : unstuff y (stuff x l) = .ok u) : u = l := by
  induction l generalizing u with
  | nil => exact (Except.ok.inj h).symm
  | cons v l ih =>
    obtain ⟨u', rfl, hu'⟩ := unstuff_stuff1_append_eq_ok h
    rw [ih hu']

theorem unstuff_stuff (x : Bool) (l : List Byte) : unstuff x (stuff x l) = .ok l := by
  induction l with
  | nil => rfl
  | cons v l ih =>
    rw [stuff_cons, unstuff_stuff1_append, ih]
    simp [Except.map]

/-! ## Settling O4: the instruction that an input carries -/

theorem decodeWire_wellFormed (b : Byte) : (decodeWire b).wellFormed = true := by
  unfold decodeWire
  split_ifs with hflag hesc h11 h13
  case neg => simp [Instr.wellFormed, Byte.isLiteral, hflag, hesc, h11, h13]
  all_goals rfl

theorem decodeEscaped_wellFormed (b : Byte) : (decodeEscaped b).wellFormed = true := by
  unfold decodeEscaped
  split_ifs with h5E h5D h31 h33
  case neg => simpa [Instr.wellFormed, Byte.isBadEscape] using ⟨⟨⟨h5E, h5D⟩, h31⟩, h33⟩
  all_goals rfl

theorem decodeReceived_wellFormed (escPend : Bool) (b : Byte) : (decodeReceived escPend b).wellFormed = true := by
  cases escPend with
  | false => exact decodeWire_wellFormed b
  | true => exact decodeEscaped_wellFormed b

/-- The three operations of CTRL have no operand, so what CTRL selects is well formed (30_encoding.md R115). -/
theorem decode_ctrl_wellFormed {v : Byte} {i : Instr} (h : decode .ctrl [v] = .ok i) : i.wellFormed = true := by
  simp only [decode, decodeOp] at h
  split_ifs at h
  all_goals
    obtain rfl := Except.ok.inj h
    rfl

theorem decode_received (escPend : Bool) (b : Byte) :
    decode (if escPend then .escaped else .wire) [b] = .ok (decodeReceived escPend b) := by
  cases escPend <;> rfl

theorem decodeLayout_layoutOf (addr cmd : Byte) {payload : List Byte} (chk : Byte) (h : payload.length ≤ 255) :
    decodeLayout (layoutOf addr cmd payload chk) = .ok (.frame addr cmd payload chk) := by
  simp [decodeLayout, layoutOf, ofNat_length_toNat h]

theorem layoutOnWire_wireOf (x : Bool) (addr cmd : Byte) (payload : List Byte) (chk : Byte) :
    layoutOnWire x (wireOf x addr cmd payload chk) = some (layoutOf addr cmd payload chk) := by
  simp only [layoutOnWire, wireOf, List.dropLast_concat, unstuff_stuff]
  simp [innerBytes, summed, layoutOf]

/-- The wire bytes of one frame are recognised as that FRAME (30_encoding.md R91, R92). -/
theorem decodeDelivery_wireOf (x : Bool) (addr cmd : Byte) {payload : List Byte} (chk : Byte)
    (h : payload.length ≤ 255) :
    decodeDelivery x (wireOf x addr cmd payload chk) = some (.frame addr cmd payload chk) := by
  have hd : decode .frame (layoutOf addr cmd payload chk) = .ok (.frame addr cmd payload chk) :=
    decodeLayout_layoutOf addr cmd chk h
  simp only [decodeDelivery, layoutOnWire_wireOf, hd, frameWire, if_true]

theorem step_of_inputs_nil {s : State} (h : s.inputs = []) : step s = .next s := by
  simp only [step, h]

theorem step_of_inputs_cons {s : State} {e : Input} {rest : List Input} (h : s.inputs = e :: rest) :
    step s = handle e { s with inputs := rest } := by
  simp only [step, h]

theorem handle_writeCtrl {v : Word32} {i : Instr} (h : decode .ctrl [v.setWidth 8] = .ok i) (s : State) :
    handle (.writeReg 0x00 v) s = exec i s := by
  simp only [handle, if_true, hostWriteCtrl, h]

theorem handle_rx_wireOf (s : State) (addr cmd : Byte) {payload : List Byte} (chk : Byte) (h : payload.length ≤ 255) :
    handle (.rx (wireOf s.escLegacy addr cmd payload chk)) s = exec (.frame addr cmd payload chk) s := by
  simp only [handle, receiveDelivery, decodeDelivery_wireOf s.escLegacy addr cmd chk h]

/-- Settles O4: one conjunct for each kind of input that carries an instruction, and the empty list of inputs. -/
theorem stepRunsTheDecodedInstruction : Obligations.StepRunsTheDecodedInstruction := by
  refine ⟨fun s v rest i hin hd => ⟨decode_ctrl_wellFormed hd, ?_⟩, fun s b rest i hin hd => ?_,
    fun s addr cmd chk payload rest hlen hin => ?_, fun s => step_of_inputs_nil⟩
  · rw [step_of_inputs_cons hin, handle_writeCtrl hd]
  · rw [decode_received] at hd
    obtain rfl := Except.ok.inj hd
    exact ⟨decodeReceived_wellFormed _ b, step_of_inputs_cons hin⟩
  · rw [step_of_inputs_cons hin]
    exact handle_rx_wireOf { s with inputs := rest } addr cmd chk hlen

/-! ## Settling O32: one bit of a stuffed body inverted -/

/-- `b` with bit `k` inverted. -/
def flipBit (b : Byte) (k : Nat) : Byte := b ^^^ (1#8 <<< k)

theorem flipBit_ne {k : Nat} (hk : k < 8) (b : Byte) : flipBit b k ≠ b := by
  have hbit : ∀ k < 8, (1#8 <<< k) ≠ 0#8 := by decide
  intro h
  refine hbit k hk ?_
  calc 1#8 <<< k = b ^^^ flipBit b k := by rw [flipBit, ← BitVec.xor_assoc, BitVec.xor_self, BitVec.zero_xor]
    _ = 0#8 := by rw [h, BitVec.xor_self]

theorem flipBit_flipBit (b : Byte) (k : Nat) : flipBit (flipBit b k) k = b := by
  rw [flipBit, flipBit, BitVec.xor_assoc, BitVec.xor_self, BitVec.xor_zero]

theorem flipBit_xor_stuffXor (b : Byte) (k : Nat) : flipBit (b ^^^ stuffXor) k ^^^ stuffXor = flipBit b k := by
  calc b ^^^ stuffXor ^^^ 1#8 <<< k ^^^ stuffXor
      = b ^^^ 1#8 <<< k ^^^ stuffXor ^^^ stuffXor := by ac_rfl
    _ = flipBit b k := xor_stuffXor_cancel _

/-- Every byte of either escape set is one of the four (30_encoding.md R100). -/
theorem mem_four_of_inEscSet {x : Bool} {v : Byte} (h : inEscSet x v = true) :
    v ∈ [flagByte, escByte, ctl11Byte, ctl13Byte] := by
  rcases (inEscSet_iff x v).mp h with rfl | rfl | ⟨-, rfl | rfl⟩ <;> simp

theorem except_map_eq_ok {r : Except DecodeErr (List Byte)} {f : List Byte → List Byte} {u : List Byte}
    (h : r.map f = .ok u) : ∃ u', r = .ok u' ∧ u = f u' := by
  cases r with
  | error e => cases h
  | ok u' => exact ⟨u', rfl, (Except.ok.inj h).symm⟩

theorem byteSum_cons_mod_ne {a b : Byte} (h : a ≠ b) (l : List Byte) :
    byteSum (a :: l) % 256 ≠ byteSum (b :: l) % 256 := by
  have hne : a.toNat ≠ b.toNat := fun e => h (BitVec.eq_of_toNat_eq e)
  have ha := a.isLt
  have hb := b.isLt
  simp only [byteSum_cons]
  omega

/-- An ESC with one bit inverted and the second byte of an escape pair never sum to the byte the pair stands for: the
arithmetic of 42_frame_codec.md R180, cases 3 and 4. -/
theorem flipped_esc_sum_ne {k : Nat} (hk : k < 8) {x : Bool} {v : Byte} (hv : inEscSet x v = true) (l : List Byte) :
    byteSum (flipBit escByte k :: (v ^^^ stuffXor) :: l) % 256 ≠ byteSum (v :: l) % 256 := by
  have hpair : ∀ k < 8, ∀ v ∈ [flagByte, escByte, ctl11Byte, ctl13Byte],
      ((flipBit escByte k).toNat + (v ^^^ stuffXor).toNat) % 256 ≠ v.toNat := by decide
  have hne := hpair k hk v (mem_four_of_inEscSet hv)
  have hlt := v.isLt
  simp only [byteSum_cons]
  omega

section
variable {x y : Bool} {k : Nat} {v : Byte} {l u : List Byte}

/-- R180 case 3: a literal that becomes an ESC swallows the byte behind it. -/
theorem literal_flipped_to_esc_sum_ne (hk : k < 8) (hflip : flipBit v k = escByte)
    (hu : unstuff y (escByte :: stuff x l) = .ok u) : byteSum u % 256 ≠ byteSum (v :: l) % 256 := by
  have hv : v = flipBit escByte k := by rw [← hflip, flipBit_flipBit]
  cases l with
  | nil =>
    rw [stuff_nil, unstuff_esc_alone] at hu
    cases hu
  | cons e l =>
    cases he : inEscSet x e with
    | true =>
      have hbad : inEscSet y (escByte ^^^ stuffXor) = false := by cases y <;> rfl
      rw [stuff_cons, stuff1_of_mem he, List.cons_append, unstuff_esc_cons, hbad] at hu
      cases hu
    | false =>
      rw [stuff_cons, stuff1_of_not_mem he, List.cons_append, List.nil_append, unstuff_esc_cons] at hu
      split at hu
      · rename_i hpair
        obtain ⟨u', hu', rfl⟩ := except_map_eq_ok hu
        rw [unstuff_stuff_eq_ok hu', hv]
        have hne := flipped_esc_sum_ne hk hpair l
        rw [xor_stuffXor_cancel] at hne
        exact hne.symm
      · cases hu

/-- R180 cases 3 and 6: a byte that STUFF left as it is. -/
theorem flipped_literal_sum_ne (hk : k < 8) (hu : unstuff y (flipBit v k :: stuff x l) = .ok u) :
    byteSum u % 256 ≠ byteSum (v :: l) % 256 := by
  by_cases hflip : flipBit v k = escByte
  · rw [hflip] at hu
    exact literal_flipped_to_esc_sum_ne hk hflip hu
  · rw [unstuff_cons_of_ne_esc y hflip] at hu
    obtain ⟨u', hu', rfl⟩ := except_map_eq_ok hu
    rw [unstuff_stuff_eq_ok hu']
    exact byteSum_cons_mod_ne (flipBit_ne hk v) l

/-- R180 case 4: the ESC of an escape pair becomes a literal, and so does the byte behind it. -/
theorem flipped_esc_of_pair_sum_ne (hk : k < 8) (hv : inEscSet x v = true)
    (hu : unstuff y (flipBit escByte k :: (v ^^^ stuffXor) :: stuff x l) = .ok u) :
    byteSum u % 256 ≠ byteSum (v :: l) % 256 := by
  have hcode : ∀ v ∈ [flagByte, escByte, ctl11Byte, ctl13Byte], v ^^^ stuffXor ≠ escByte := by decide
  rw [unstuff_cons_of_ne_esc y (flipBit_ne hk escByte),
    unstuff_cons_of_ne_esc y (hcode v (mem_four_of_inEscSet hv))] at hu
  obtain ⟨u₁, hu₁, rfl⟩ := except_map_eq_ok hu
  obtain ⟨u₂, hu₂, rfl⟩ := except_map_eq_ok hu₁
  rw [unstuff_stuff_eq_ok hu₂]
  exact flipped_esc_sum_ne hk hv l

/-- R180 case 5: the second byte of an escape pair. -/
theorem flipped_code_of_pair_sum_ne (hk : k < 8)
    (hu : unstuff y (escByte :: flipBit (v ^^^ stuffXor) k :: stuff x l) = .ok u) :
    byteSum u % 256 ≠ byteSum (v :: l) % 256 := by
  rw [unstuff_esc_cons, flipBit_xor_stuffXor] at hu
  split at hu
  · obtain ⟨u', hu', rfl⟩ := except_map_eq_ok hu
    rw [unstuff_stuff_eq_ok hu']
    exact byteSum_cons_mod_ne (flipBit_ne hk v) l
  · cases hu

/-- Stuffed bytes with one bit of one byte inverted are never read back as bytes of the same sum modulo 256. -/
theorem unstuff_flipped_sum_ne (hk : k < 8) {pre post : List Byte} {c : Byte} (hs : stuff x l = pre ++ c :: post)
    (hu : unstuff y (pre ++ flipBit c k :: post) = .ok u) : byteSum u % 256 ≠ byteSum l % 256 := by
  induction l generalizing pre u with
  | nil => simp at hs
  | cons v l ih =>
    have later : ∀ {pre'}, pre = stuff1 x v ++ pre' → byteSum u % 256 ≠ byteSum (v :: l) % 256 := by
      rintro pre' rfl
      rw [stuff_cons, List.append_assoc, List.append_cancel_left_eq] at hs
      rw [List.append_assoc] at hu
      obtain ⟨u', rfl, hu'⟩ := unstuff_stuff1_append_eq_ok hu
      have hne := ih hs hu'
      simp only [byteSum_cons]
      omega
    cases hv : inEscSet x v with
    | false =>
      rw [stuff_cons, stuff1_of_not_mem hv] at hs
      rw [stuff1_of_not_mem hv] at later
      cases pre with
      | nil =>
        obtain ⟨rfl, rfl⟩ := List.cons.inj hs
        exact flipped_literal_sum_ne hk hu
      | cons p pre =>
        obtain ⟨rfl, -⟩ := List.cons.inj hs
        exact later rfl
    | true =>
      rw [stuff_cons, stuff1_of_mem hv] at hs
      rw [stuff1_of_mem hv] at later
      match pre with
      | [] =>
        obtain ⟨rfl, rfl⟩ := List.cons.inj hs
        exact flipped_esc_of_pair_sum_ne hk hv hu
      | [p] =>
        obtain ⟨rfl, htail⟩ := List.cons.inj hs
        obtain ⟨rfl, rfl⟩ := List.cons.inj htail
        exact flipped_code_of_pair_sum_ne hk hu
      | p :: q :: pre =>
        obtain ⟨rfl, htail⟩ := List.cons.inj hs
        obtain ⟨rfl, -⟩ := List.cons.inj htail
        exact later rfl

end

/-! ## Settling O32: the stages of decode behind UNSTUFF -/

theorem cksumVfy_eq_false {u : List Byte} (h : byteSum u % 256 ≠ 255) : cksumVfy u = false := by
  rcases List.eq_nil_or_concat' u with rfl | ⟨before, chk, rfl⟩
  · rfl
  · rw [cksumVfy_concat, decide_eq_false_iff_not, cks_eq_iff]
    simpa using h

/-- Inner bytes that fail the checksum are reported so, or as a FramingError before it. -/
theorem parseInner_of_cksum_false {u : List Byte} (h : cksumVfy u = false) :
    ∃ e, parseInner u = .error e ∧ e ≠ .length := by
  unfold parseInner
  split
  · split
    · exact ⟨_, rfl, by decide⟩
    · rw [h]; exact ⟨_, rfl, by decide⟩
  · exact ⟨_, rfl, by decide⟩

/-- A delimited body that unstuffs to no bytes of sum 0xFF modulo 256 fails to decode, with no LengthMismatch. -/
theorem decodeFrame_of_sum_ne {y : Bool} {body : List Byte}
    (h : ∀ u, unstuff y body = .ok u → byteSum u % 256 ≠ 255) :
    ∃ e, decodeFrame y (flagByte :: (body ++ [flagByte])) = .error e ∧ e ≠ .length := by
  by_cases hf : flagByte ∈ body
  · exact ⟨.framing, by simp [decodeFrame, hf], by decide⟩
  · rw [decodeFrame_delimited y hf]
    cases hu : unstuff y body with
    | error e => exact ⟨e, rfl, by rw [unstuff_eq_error hu]; decide⟩
    | ok u => exact parseInner_of_cksum_false (cksumVfy_eq_false (h u hu))

theorem decodeFrame_of_bad_opening (y : Bool) {b : Byte} (hb : b ≠ flagByte) (rest : List Byte) :
    decodeFrame y (b :: rest) = .error .framing := by
  simp [decodeFrame, hb]

theorem decodeFrame_of_bad_closing (y : Bool) {b : Byte} (hb : b ≠ flagByte) (first : Byte) (body : List Byte) :
    decodeFrame y (first :: (body ++ [b])) = .error .framing := by
  simp [decodeFrame, hb]

/-- The inner bytes of an encoded frame sum to 0xFF modulo 256 (40_checksum.md R133). -/
theorem byteSum_innerBytes (addr cmd : Byte) (payload : List Byte) :
    byteSum (innerBytes addr cmd payload (cksumGen addr cmd payload)) % 256 = 255 := by
  have h := (cks_eq_iff (summed addr cmd payload) _).mp rfl
  simpa [innerBytes, cksumGen] using h

theorem exists_append_of_getElem? {w : List Byte} {i : Nat} {b : Byte} (h : w[i]? = some b) :
    ∃ pre post, w = pre ++ b :: post ∧ ∀ c, w.set i c = pre ++ c :: post := by
  obtain ⟨hi, rfl⟩ := List.getElem?_eq_some_iff.mp h
  exact ⟨w.take i, w.drop (i + 1), by simp, fun c => List.set_eq_take_append_cons_drop.trans (if_pos hi)⟩

/-- R180 for a byte at any place of the frame: the opening delimiter, the closing one, or a byte of the body. -/
theorem decodeFrame_flipped (x y : Bool) {l pre post : List Byte} {b : Byte} {k : Nat} (hk : k < 8)
    (hl : byteSum l % 256 = 255) (hw : flagByte :: (stuff x l ++ [flagByte]) = pre ++ b :: post) :
    ∃ e, decodeFrame y (pre ++ flipBit b k :: post) = .error e ∧ e ≠ .length := by
  cases pre with
  | nil =>
    obtain ⟨rfl, -⟩ := List.cons.inj hw
    exact ⟨.framing, decodeFrame_of_bad_opening y (flipBit_ne hk _) _, by decide⟩
  | cons p pre =>
    rw [List.cons_append] at hw
    obtain ⟨rfl, hbody⟩ := List.cons.inj hw
    rcases List.eq_nil_or_concat' post with rfl | ⟨post, q, rfl⟩
    · obtain ⟨-, hb⟩ := List.append_inj' hbody rfl
      obtain rfl := List.singleton_inj.mp hb
      exact ⟨.framing, decodeFrame_of_bad_closing y (flipBit_ne hk _) _ _, by decide⟩
    · have hassoc : ∀ c, pre ++ c :: (post ++ [q]) = (pre ++ c :: post) ++ [q] := by simp
      rw [hassoc] at hbody
      obtain ⟨hs, hq⟩ := List.append_inj' hbody rfl
      obtain rfl := List.singleton_inj.mp hq
      rw [List.cons_append, hassoc]
      exact decodeFrame_of_sum_ne fun u hu => hl ▸ unstuff_flipped_sum_ne hk hs hu

/-- Settles O32: the body with the inverted bit unstuffs to bytes of another sum, or not at all. -/
theorem singleBitErrorsAreDetected : Obligations.SingleBitErrorsAreDetected := by
  intro x y addr cmd payload w i b k hw hi hk
  obtain ⟨-, rfl⟩ := encodeFrame_eq_ok.mp hw
  obtain ⟨pre, post, hsplit, hset⟩ := exists_append_of_getElem? hi
  rw [hset]
  exact decodeFrame_flipped x y hk (byteSum_innerBytes addr cmd payload) hsplit

end Sys2Proof.Machine

/-! ## What an input does, said once: host accesses, operations, received bytes, ticks, reset -/

namespace Sys2Proof.Machine

open Config

/-- How far the synchronizer has come: bytes gone from the front of RXBUF, and at most one failed candidate absorbed
(43_transport_session.md R203, R207, R212). -/
inductive State.Advanced (s : State) : State → Prop where
  | discarded {l : List Byte} (hl : l <:+ s.rxbuf) : s.Advanced { s with rxbuf := l }
  | absorbed {l : List Byte} (e : DecodeErr) (hl : l <:+ s.rxbuf) (hr : s.resynced = false) :
      s.Advanced { s with rxbuf := l, resynced := true, firstErr := some e }

theorem State.Advanced.refl (s : State) : s.Advanced s := .discarded List.suffix_rfl

theorem State.Advanced.suffix {s u : State} (h : s.Advanced u) : u.rxbuf <:+ s.rxbuf := by
  cases h with
  | discarded hl => exact hl
  | absorbed e hl hr => exact hl

theorem State.Advanced.trans {s u t : State} (h : s.Advanced u) (h' : u.Advanced t) : s.Advanced t := by
  cases h with
  | discarded hl =>
    cases h' with
    | discarded hl' => exact .discarded (hl'.trans hl)
    | absorbed e hl' hr => exact .absorbed e (hl'.trans hl) hr
  | absorbed e hl hr =>
    cases h' with
    | discarded hl' => exact .absorbed e (hl'.trans hl) hr
    | absorbed e' hl' hr' => cases hr'

/-- The three ways settling stops: the framer waits, a decoded frame is the response, or the operation fails with
Timeout or with the failure of a candidate (R208, R211, R213, R219). -/
inductive State.Settled (s : State) : State → Prop where
  | waits {u : State} (hu : s.Advanced u) (hq : rxSettled u.rxbuf = true) (ht : u.timer ≠ 0) : s.Settled u
  | answers {u : State} (f : Frame) (hu : s.Advanced u) (hf : f.payload.length ≤ 255) :
      s.Settled ((u.storeFrame f).correlate f)
  | fails {u : State} (c : Code) (hu : s.Advanced u) (hc : c = .timeout ∨ ∃ e : DecodeErr, c = e.code) :
      s.Settled (u.fail c)

theorem State.Advanced.settled {s u t : State} (h : s.Advanced u) (h' : u.Settled t) : s.Settled t := by
  cases h' with
  | waits hu hq ht => exact .waits (h.trans hu) hq ht
  | answers f hu hf => exact .answers f (h.trans hu) hf
  | fails c hu hc => exact .fails c (h.trans hu) hc

theorem State.takeCandidate_advances {s : State} {body after : List Byte}
    (hB : s.rxbuf = flagByte :: (body ++ flagByte :: after)) :
    (∃ u, s.takeCandidate body after = .again u ∧ s.Advanced u) ∨
      (∃ t, s.takeCandidate body after = .done t ∧ s.Settled t) := by
  have hkept : flagByte :: after <:+ s.rxbuf := hB ▸ (List.suffix_append body _).trans (List.suffix_cons _ _)
  cases hd : decodeFrame s.escLegacy (flagByte :: (body ++ [flagByte])) with
  | ok f =>
    exact .inr ⟨_, State.takeCandidate_ok hd,
      .answers f (.discarded ((List.suffix_cons _ _).trans hkept)) (decodeFrame_payload_le hd)⟩
  | error e =>
    cases hr : s.resynced with
    | false => exact .inl ⟨_, State.takeCandidate_first hd hr, .absorbed e hkept hr⟩
    | true => exact .inr ⟨_, State.takeCandidate_second hd hr, .fails e.code (.discarded hkept) (.inr ⟨e, rfl⟩)⟩

theorem State.syncStep_advances (s : State) :
    (∃ u, s.syncStep = .again u ∧ s.Advanced u) ∨ (∃ t, s.syncStep = .done t ∧ s.Settled t) ∨
      (s.syncStep = .waiting s ∧ s.Settled s) := by
  rcases s.syncStep_cases with ⟨b, rest, hB, -, hs⟩ | ⟨rest, hB, hs⟩ | ⟨body, after, hB, -, -, hs⟩ | ⟨hq, hs⟩
  · exact .inl ⟨_, hs, .discarded (hB ▸ List.suffix_cons _ _)⟩
  · exact .inl ⟨_, hs, .discarded (hB ▸ List.suffix_cons _ _)⟩
  · rw [hs]
    exact (State.takeCandidate_advances hB).imp_right .inl
  · rw [hs, State.stall]
    split_ifs with ht
    · exact .inr (.inl ⟨_, rfl, .fails .timeout (.refl s) (.inl rfl)⟩)
    · exact .inr (.inr ⟨rfl, .waits (.refl s) hq ht⟩)

theorem State.settle_settled (s : State) : s.Settled s.settle := by
  refine State.settle_induct (P := s.Advanced) (Q := s.Settled) ?_ ?_ ?_ (.refl s) <;> intro u t hu he
  case refine_1 =>
    obtain ⟨u', h, ha⟩ | ⟨t', h, -⟩ | ⟨h, -⟩ := u.syncStep_advances <;> rw [h] at he <;> cases he
    exact hu.trans ha
  case refine_2 =>
    obtain ⟨u', h, -⟩ | ⟨t', h, ht⟩ | ⟨h, -⟩ := u.syncStep_advances <;> rw [h] at he <;> cases he
    exact hu.settled ht
  case refine_3 =>
    obtain ⟨u', h, -⟩ | ⟨t', h, -⟩ | ⟨h, ht⟩ := u.syncStep_advances <;> rw [h] at he <;> cases he
    exact hu.settled ht

/-- Correlation only chooses the code that the operation finishes with (R211). -/
theorem State.correlate_eq_finish (s : State) (f : Frame) :
    s.correlate f = s.finish
      (if f.addr ≠ s.reqAddr then .addressMismatch else if f.cmd ≠ s.reqCmd then .commandMismatch else .ok) := by
  unfold State.correlate
  split_ifs <;> rfl

theorem State.Advanced.frame {s u : State} (h : s.Advanced u) :
    u.phase = s.phase ∧ u.busy = s.busy ∧ u.result = s.result := by
  cases h <;> exact ⟨rfl, rfl, rfl⟩

/-- Settling writes RESULT only where it ends the operation (60_exceptions.md R250). -/
theorem State.Settled.result_of_busy {s t : State} (h : s.Settled t) (hb : t.busy = true) :
    s.busy = true ∧ t.result = s.result := by
  cases h with
  | waits hu hq ht =>
    obtain ⟨-, hbusy, hresult⟩ := hu.frame
    exact ⟨hbusy ▸ hb, hresult⟩
  | answers f hu hf => rw [State.correlate_eq_finish] at hb; cases hb
  | fails c hu hc => cases hb

/-- What a host write that is not ignored changes: one register or one byte of a buffer (10_state.md R22 to R25, R33,
R36, R38, R40). -/
inductive State.HostWritten (s : State) : State → Prop where
  | escLegacy (x : Bool) : s.HostWritten { s with escLegacy := x }
  | reqAddr (a : Byte) : s.HostWritten { s with reqAddr := a }
  | reqCmd (c : Byte) : s.HostWritten { s with reqCmd := c }
  | reqPlen (n : Word16) : s.HostWritten { s with reqPlen := n }
  | timeout (v : Word32) : s.HostWritten { s with timeout := v }
  | wireLen {n : Word16} (hn : n.toNat ≤ wireMax) : s.HostWritten { s with wireLen := n }
  | txpay {i : Nat} (hi : i < payloadMax) (v : Byte) : s.HostWritten { s with txpay := s.txpay.write i v }
  | wire {i : Nat} (hi : i < wireMax) (v : Byte) : s.HostWritten { s with wire := s.wire.write i v }

/-- Every way an input is handled where the block goes on (00_scope.md R8). -/
inductive State.Handled (s : State) : Input → State → Prop where
  | hostRead {e : Input} (v : Word32) : s.Handled e { s with hostData := v }
  | ignored {e : Input} : s.Handled e s
  | hostWrite {e : Input} {t : State} (hb : s.busy = false) (ht : s.HostWritten t) : s.Handled e t
  | encode {e : Input} {t : State} (h : execEncode s = .next t) : s.Handled e t
  | decode {e : Input} {t : State} (h : execDecode s = .next t) : s.Handled e t
  | xfer {v : Word32} {t : State} (hop : (v.setWidth 8 : Byte) = 0x03) (h : execXfer s = .next t) :
      s.Handled (.writeReg 0x00 v) t
  | received {e : Input} (bytes : List Byte) : s.Handled e (s.rxBytes bytes)
  | tick : s.Handled .tick s.tick
  | reset : s.Handled .reset s.applyReset

theorem hostReadReg_cases {num : Byte} {s t : State} (h : hostReadReg num s = .next t) :
    ∃ v, s.readRegister num = .ok v ∧ t = { s with hostData := v } := by
  unfold hostReadReg at h
  split at h
  · rename_i v hv; cases h; exact ⟨v, hv, rfl⟩
  · cases h

theorem hostWriteReg_cases {num : Byte} {v : Word32} {s t : State} (h : hostWriteReg num v s = .next t) :
    t = s ∨ s.busy = false ∧ s.HostWritten t := by
  unfold hostWriteReg at h
  split at h
  case h_6 =>
    unfold writeWireLen at h
    split_ifs at h with hb hn
    cases h
    exact .inr ⟨by simpa using hb, .wireLen (Nat.le_of_not_lt hn)⟩
  case h_7 => cases h; exact .inl rfl
  all_goals
    obtain ⟨hb, rfl⟩ := whileIdle_eq_next.mp h
    exact .inr ⟨hb, by constructor⟩

theorem hostWriteCtrl_handled {v : Word32} {s t : State} (h : hostWriteCtrl (v.setWidth 8) s = .next t) :
    s.Handled (.writeReg 0x00 v) t := by
  unfold hostWriteCtrl at h
  simp only [Sys2Proof.decode, decodeOp] at h
  split_ifs at h with h1 h2 h3
  · exact .encode h
  · exact .decode h
  · exact .xfer h3 h

/-- What an earlier host read returned makes no difference to the next one (20_memory.md R66). -/
theorem hostReadReg_hostData (num : Byte) (s : State) (w : Word32) :
    hostReadReg num { s with hostData := w } = hostReadReg num s := rfl

theorem hostReadBuf_hostData (buf : Buf) (i : Nat) (s : State) (w : Word32) :
    hostReadBuf buf i { s with hostData := w } = hostReadBuf buf i s := rfl

/-- What a host read gives for the byte `b?` of the buffer `buf`: its value, or the refusal where it holds none. -/
def State.giveByte (s : State) (buf : Buf) (b? : Option Byte) : Host.Outcome State Fault Refusal :=
  b?.elim (.refused (.unwrittenByte buf)) fun b => .next { s with hostData := b.setWidth 32 }

theorem State.giveByte_cases {s t : State} {buf : Buf} {b? : Option Byte} (h : s.giveByte buf b? = .next t) :
    ∃ v, t = { s with hostData := v } := by
  cases b? with
  | none => cases h
  | some b => cases h; exact ⟨_, rfl⟩

theorem hostReadBuf_of_capacity_le {buf : Buf} {i : Nat} (hi : buf.capacity ≤ i) (s : State) :
    hostReadBuf buf i s = .fault (.noSuchByte buf i) := if_pos hi

theorem hostReadBuf_txpay {i : Nat} (hi : i < Buf.txpay.capacity) (s : State) :
    hostReadBuf .txpay i s = s.giveByte .txpay (s.txpay.read i) := by
  rw [hostReadBuf, if_neg (Nat.not_le.mpr hi)]
  cases s.txpay.read i <;> simp [State.giveByte]

theorem hostReadBuf_wire {i : Nat} (hi : i < Buf.wire.capacity) (s : State) :
    hostReadBuf .wire i s = s.giveByte .wire (s.wire.read i) := by
  rw [hostReadBuf, if_neg (Nat.not_le.mpr hi)]
  cases s.wire.read i <;> simp [State.giveByte]

theorem hostReadBuf_rxpay {i : Nat} (hi : i < Buf.rxpay.capacity) (s : State) :
    hostReadBuf .rxpay i s =
      if s.rspValid then
        if s.rspLen.toNat ≤ i then .refused (.unwrittenByte .rxpay) else s.giveByte .rxpay (s.rxpay.read i)
      else .refused .rspNotValid := by
  rw [hostReadBuf, if_neg (Nat.not_le.mpr hi)]
  cases hv : s.rspValid <;> cases s.rxpay.read i <;> simp [hv, State.giveByte]

theorem hostReadBuf_cases {buf : Buf} {i : Nat} {s t : State} (h : hostReadBuf buf i s = .next t) :
    ∃ v, t = { s with hostData := v } := by
  by_cases hi : buf.capacity ≤ i
  · rw [hostReadBuf_of_capacity_le hi] at h; cases h
  have hi := Nat.lt_of_not_le hi
  cases buf with
  | txpay => exact State.giveByte_cases (hostReadBuf_txpay hi s ▸ h)
  | wire => exact State.giveByte_cases (hostReadBuf_wire hi s ▸ h)
  | rxpay =>
    rw [hostReadBuf_rxpay hi] at h
    split_ifs at h
    exact State.giveByte_cases h

theorem hostWriteBuf_cases {buf : Buf} {i : Nat} {v : Byte} {s t : State} (h : hostWriteBuf buf i v s = .next t) :
    t = s ∨ s.busy = false ∧ s.HostWritten t := by
  unfold hostWriteBuf at h
  split_ifs at h with hi
  have hi := Nat.lt_of_not_le hi
  cases buf <;> obtain ⟨hb, rfl⟩ := whileIdle_eq_next.mp h
  case txpay => exact .inr ⟨hb, .txpay hi v⟩
  case rxpay => exact .inl rfl
  case wire => exact .inr ⟨hb, .wire hi v⟩

theorem decode_frame_eq_ok {layout : List Byte} {i : Instr} (h : Sys2Proof.decode .frame layout = .ok i) :
    ∃ addr cmd payload chk, i = .frame addr cmd payload chk := by
  simp only [Sys2Proof.decode, decodeLayout] at h
  split at h
  · split_ifs at h
    split at h
    · split_ifs at h
      cases h
      exact ⟨_, _, _, _, rfl⟩
    · cases h
  · cases h

/-- A delivery is the run of its bytes, recognised as one frame or not (20_memory.md R70). -/
theorem receiveDelivery_eq (bytes : List Byte) (s : State) : receiveDelivery bytes s = .next (s.rxBytes bytes) := by
  unfold receiveDelivery decodeDelivery
  cases hl : layoutOnWire s.escLegacy bytes with
  | none => rfl
  | some layout =>
    cases hd : Sys2Proof.decode .frame layout with
    | error e => simp [hd]
    | ok i =>
      obtain ⟨addr, cmd, payload, chk, rfl⟩ := decode_frame_eq_ok hd
      simp only [hd]
      split_ifs with hw
      · exact congrArg (fun l => Host.Outcome.next (s.rxBytes l)) hw
      · rfl

theorem handle_handled {e : Input} {s t : State} (h : handle e s = .next t) : s.Handled e t := by
  have written (ht : t = s ∨ s.busy = false ∧ s.HostWritten t) : s.Handled e t := by
    obtain rfl | ⟨hb, ht⟩ := ht
    · exact .ignored
    · exact .hostWrite hb ht
  cases e with
  | writeReg num v =>
    simp only [handle] at h
    split_ifs at h with hnum
    · exact hnum ▸ hostWriteCtrl_handled h
    · exact written (hostWriteReg_cases h)
  | writeBuf buf i v => exact written (hostWriteBuf_cases h)
  | readReg num =>
    obtain ⟨v, -, rfl⟩ := hostReadReg_cases h
    exact .hostRead v
  | readBuf buf i =>
    obtain ⟨v, rfl⟩ := hostReadBuf_cases h
    exact .hostRead v
  | rxByte b =>
    obtain rfl := Host.Outcome.next.inj ((exec_decodeReceived s b).symm.trans h)
    exact .received [b]
  | rx bytes =>
    obtain rfl := Host.Outcome.next.inj ((receiveDelivery_eq bytes s).symm.trans h)
    exact .received bytes
  | tick => cases h; exact .tick
  | reset => cases h; exact .reset

/-- Every step that goes on: no input and nothing happens, or the oldest input is handled (00_scope.md R9). -/
theorem step_cases {s t : State} (h : step s = .next t) :
    (s.inputs = [] ∧ t = s) ∨ ∃ e rest, s.inputs = e :: rest ∧ ({ s with inputs := rest } : State).Handled e t := by
  cases hin : s.inputs with
  | nil => rw [step_of_inputs_nil hin] at h; cases h; exact .inl ⟨rfl, rfl⟩
  | cons e rest => exact .inr ⟨e, rest, rfl, handle_handled (step_of_inputs_cons hin ▸ h)⟩

end Sys2Proof.Machine

/-! ## Settling O54 and O55: the invariant -/

namespace Sys2Proof.Machine

open Config

/-- The clauses of the invariant that no phase enters: FIRST_ERR, WIRE_LEN, the buffers and the stored response
(10_state.md R32, R35, R36; 20_memory.md R60). -/
structure State.DataInv (s : State) : Prop where
  first_err : s.firstErr.isSome = s.resynced
  wire_len : s.wireLen.toNat ≤ wireMax
  txpay_ok : s.txpay.wf = true ∧ s.txpay.below payloadMax = true
  rxpay_ok : s.rxpay.wf = true ∧ s.rxpay.below payloadMax = true
  wire_ok : s.wire.wf = true ∧ s.wire.below wireMax = true
  rsp_ok : s.rspValid = true → s.rspIsResponse = true ∧ (s.rxpay.readFrom 0 s.rspLen.toNat).isSome = true

/-- No operation in progress, and the scan state dead (43_transport_session.md R191; 10_state.md R44). -/
def State.AtRest (s : State) : Prop := s.phase = .idle ∧ s.busy = false ∧ s.scan = Scan.zero

/-- The framer waits, with the scan state of the unfinished candidate (R208). -/
def State.Receiving (s : State) : Prop := s.Waiting ∧ s.scan = scanBody s.escLegacy s.rxbuf.tail

theorem State.inv_iff {s : State} : s.Inv ↔ s.DataInv ∧ (s.AtRest ∨ s.Receiving) := by
  constructor
  · intro h
    refine ⟨{ h with }, ?_⟩
    have hbusy := h.busy_iff
    have hscan := h.scan_ok
    unfold State.scanExpected at hscan
    cases hp : s.phase with
    | idle =>
      simp only [hp, reduceCtorEq, iff_false, Bool.not_eq_true, if_false] at hbusy hscan
      exact .inl ⟨hp, hbusy, hscan⟩
    | tx => exact absurd hp h.not_tx
    | rx =>
      obtain ⟨ht, hq⟩ := h.quiescent hp
      exact .inr ⟨⟨hp, hbusy.mpr hp, ht, hq⟩, by simpa [hp] using hscan⟩
  · rintro ⟨hd, ⟨hp, hb, hs⟩ | ⟨⟨hp, hb, ht, hq⟩, hs⟩⟩
    · exact { hd with
        busy_iff := by simp [hp, hb], not_tx := by simp [hp], quiescent := by simp [hp]
        scan_ok := by simp [State.scanExpected, hp, hs] }
    · exact { hd with
        busy_iff := by simp [hp, hb], not_tx := by simp [hp], quiescent := fun _ => ⟨ht, hq⟩
        scan_ok := by simp [State.scanExpected, hp, hs] }

theorem State.Inv.dataInv {s : State} (h : s.Inv) : s.DataInv := (State.inv_iff.mp h).1

theorem State.Inv.receiving {s : State} (h : s.Inv) (hp : s.phase = .rx) : s.Receiving := by
  obtain ⟨-, ⟨hi, -, -⟩ | hr⟩ := State.inv_iff.mp h
  · rw [hp] at hi; cases hi
  · exact hr

theorem State.Inv.atRest {s : State} (h : s.Inv) (hp : s.phase ≠ .rx) : s.AtRest := by
  obtain ⟨-, hi | ⟨hw, -⟩⟩ := State.inv_iff.mp h
  · exact hi
  · exact absurd hw.1 hp

theorem State.Inv.atRest_of_idle {s : State} (h : s.Inv) (hb : s.busy = false) : s.AtRest :=
  h.atRest fun hp => by simp [h.busy_iff.mpr hp] at hb

/-- Settles O54. -/
theorem resetMeetsTheInvariant : Obligations.ResetMeetsTheInvariant :=
  State.inv_iff.mpr ⟨by constructor <;> decide, .inl ⟨rfl, rfl, rfl⟩⟩

/-! ### The data clauses under each named update -/

theorem State.DataInv.finish {s : State} (h : s.DataInv) (c : Code) : (s.finish c).DataInv := { h with }

theorem State.DataInv.fail {s : State} (h : s.DataInv) (c : Code) : (s.fail c).DataInv :=
  { h with rxpay_ok := ⟨rfl, rfl⟩, rsp_ok := fun hv => by cases hv }

/-- A stored response has all its payload bytes in RXPAY (42_frame_codec.md R177). -/
theorem State.DataInv.storeFrame {s : State} (h : s.DataInv) {f : Frame} (hf : f.payload.length ≤ 255) :
    (s.storeFrame f).DataInv :=
  { h with
    rxpay_ok := ⟨Memory.wf_ofList _, Memory.below_ofList hf⟩
    rsp_ok := fun _ => ⟨rfl, by simp [ofNat_length_toNat hf, Memory.readFrom_ofList]⟩ }

theorem State.DataInv.storeWire {s : State} (h : s.DataInv) {w : List Byte} (hw : w.length ≤ wireMax) :
    (s.storeWire w).DataInv :=
  { h with
    wire_len := by
      rw [State.storeWire_wireLen, BitVec.toNat_ofNat]
      exact (Nat.mod_le _ _).trans hw
    wire_ok := ⟨Memory.wf_ofList _, Memory.below_ofList hw⟩ }

theorem State.DataInv.startXfer {s : State} (h : s.DataInv) : s.startXfer.DataInv := { h with first_err := rfl }

theorem State.DataInv.transmit {s : State} (h : s.DataInv) (w : List Byte) : (s.transmit w).DataInv := { h with }

theorem State.DataInv.arrival {s : State} (h : s.DataInv) (l : List Byte) (sc : Scan) :
    State.DataInv { s with rxbuf := l, scan := sc } := { h with }

theorem State.DataInv.advanced {s u : State} (h : s.DataInv) (hu : s.Advanced u) : u.DataInv := by
  cases hu with
  | discarded hl => exact { h with }
  | absorbed e hl hr => exact { h with first_err := rfl }

theorem State.DataInv.settled {s t : State} (h : s.DataInv) (ht : s.Settled t) : t.DataInv := by
  cases ht with
  | waits hu hq ht => exact h.advanced hu
  | answers f hu hf =>
    rw [State.correlate_eq_finish]
    exact ((h.advanced hu).storeFrame hf).finish _
  | fails c hu hc => exact (h.advanced hu).fail c

theorem State.DataInv.retireScan {s : State} (h : s.DataInv) : s.retireScan.DataInv := by
  rw [State.retireScan_eq]
  exact { h with }

theorem State.DataInv.hostWritten {s t : State} (h : s.DataInv) (ht : s.HostWritten t) : t.DataInv := by
  cases ht with
  | wireLen hn => exact { h with wire_len := hn }
  | txpay hi v => exact { h with txpay_ok := ⟨Memory.wf_write h.txpay_ok.1, Memory.below_write hi h.txpay_ok.2⟩ }
  | wire hi v => exact { h with wire_ok := ⟨Memory.wf_write h.wire_ok.1, Memory.below_write hi h.wire_ok.2⟩ }
  | escLegacy | reqAddr | reqCmd | reqPlen | timeout => exact { h with }

/-! ### What is left when an operation has settled -/

/-- The receive phase settles into its end or into waiting (43_transport_session.md R200, R208). -/
theorem State.Settled.ends_or_waits {s t : State} (h : s.Settled t) (hp : s.phase = .rx) (hb : s.busy = true) :
    (t.phase = .idle ∧ t.busy = false) ∨ (t.Waiting ∧ t.rxbuf <:+ s.rxbuf) := by
  cases h with
  | waits hu hq ht =>
    obtain ⟨hup, hub, -⟩ := hu.frame
    exact .inr ⟨⟨hup.trans hp, hub.trans hb, ht, hq⟩, hu.suffix⟩
  | answers f hu hf => rw [State.correlate_eq_finish]; exact .inl ⟨rfl, rfl⟩
  | fails c hu hc => exact .inl ⟨rfl, rfl⟩

theorem tail_eq_nil_of_not_bodyStarted {l : List Byte} (hq : rxSettled l = true) (hb : bodyStarted l = false) :
    l.tail = [] := by
  obtain rfl | ⟨body, rfl, -⟩ := rxSettled_iff.mp hq
  · rfl
  · cases body with
    | nil => rfl
    | cons c body => simp [bodyStarted] at hb

/-- Retiring the scan state gives the invariant its clause on it, where that state was right for an unfinished
candidate. -/
theorem State.retireScan_inv {s : State} (hd : s.DataInv)
    (hc : (s.phase = .idle ∧ s.busy = false) ∨
      (s.Waiting ∧ (bodyStarted s.rxbuf = true → s.scan = scanBody s.escLegacy s.rxbuf.tail))) :
    s.retireScan.Inv := by
  refine State.inv_iff.mpr ⟨hd.retireScan, ?_⟩
  obtain ⟨hp, hb⟩ | ⟨hw, hscan⟩ := hc
  · rw [State.retireScan_of_not_rx (by simp [hp])]
    exact .inl ⟨hp, hb, rfl⟩
  · right
    cases hbody : bodyStarted s.rxbuf with
    | true =>
      rw [State.retireScan_live hw.1 hbody]
      exact ⟨hw, hscan hbody⟩
    | false =>
      rw [State.retireScan_of_no_body hbody]
      refine ⟨hw, ?_⟩
      rw [State.clearScan_scan, State.clearScan_rxbuf, tail_eq_nil_of_not_bodyStarted hw.2.2.2 hbody]
      rfl

/-- Between events there is nothing to retire. -/
theorem State.Inv.retireScan_eq {s : State} (h : s.Inv) : s.retireScan = s := by
  have zeroed (hs : s.scan = Scan.zero) : s.clearScan = s := by rw [State.clearScan, ← hs]
  obtain ⟨-, ⟨hp, -, hs⟩ | ⟨hw, hs⟩⟩ := State.inv_iff.mp h
  · rw [State.retireScan_of_not_rx (by simp [hp]), zeroed hs]
  · cases hbody : bodyStarted s.rxbuf with
    | true => exact State.retireScan_live hw.1 hbody
    | false =>
      rw [tail_eq_nil_of_not_bodyStarted hw.2.2.2 hbody] at hs
      rw [State.retireScan_of_no_body hbody, zeroed hs]

/-! ### Received bytes, ticks and operations keep the invariant -/

theorem bodyStarted_eq_false_of_length_le {l : List Byte} (h : l.length ≤ 1) : bodyStarted l = false := by
  match l, h with
  | [], _ => rfl
  | [_], _ => rfl

/-- What is left of bytes that end in a delimiter, with nothing to act on, is at most that delimiter
(43_transport_session.md R208). -/
theorem bodyStarted_eq_false_of_ends_flag {l l' : List Byte} (hl : l <:+ l' ++ [flagByte]) (hq : rxSettled l = true) :
    bodyStarted l = false := by
  obtain rfl | ⟨body, rfl, hn⟩ := rxSettled_iff.mp hq
  · rfl
  · rcases List.eq_nil_or_concat' body with rfl | ⟨body, b, rfl⟩
    · rfl
    · obtain ⟨pre, hpre⟩ := hl
      rw [← List.cons_append, ← List.append_assoc] at hpre
      obtain ⟨-, hb⟩ := List.append_inj' hpre rfl
      obtain rfl := List.singleton_inj.mp hb
      simp at hn

theorem State.receive_of_rx {s : State} (b : Byte) (effect : Scan → Scan) (hp : s.phase = .rx) :
    ∃ sc, s.receive b effect =
      ({ s with rxbuf := s.rxbuf ++ [b], scan := sc } : State).settle.retireScan :=
  ⟨_, if_pos hp⟩

/-- A byte that is a delimiter, or that finds RXBUF empty, leaves no unfinished candidate with a body. -/
theorem State.Inv.rxByte_boundary {s : State} (h : s.Inv) {b : Byte} (hp : s.phase = .rx)
    (hb : s.rxbuf = [] ∨ b = flagByte) : (s.rxByte b).Inv := by
  obtain ⟨hw, -⟩ := h.receiving hp
  obtain ⟨sc, harrive⟩ := State.receive_of_rx b (lineEffect s.escLegacy b) hp
  have hset := State.settle_settled { s with rxbuf := s.rxbuf ++ [b], scan := sc }
  rw [State.rxByte, harrive]
  refine State.retireScan_inv ((h.dataInv.arrival _ sc).settled hset) ?_
  refine (hset.ends_or_waits hp hw.2.1).imp_right fun ⟨hw', hl⟩ => ⟨hw', fun hbody => ?_⟩
  obtain hnil | rfl := hb
  · simp [bodyStarted_eq_false_of_length_le (hl.length_le.trans (by simp [hnil]))] at hbody
  · simp [bodyStarted_eq_false_of_ends_flag hl hw'.2.2.2] at hbody

/-- A body byte of an unfinished candidate is one more turn of its scan (41_stuffing.md R145). -/
theorem State.Inv.rxByte_body {s : State} (h : s.Inv) {b : Byte} {body : List Byte} (hp : s.phase = .rx)
    (hB : s.rxbuf = flagByte :: body) (hb : b ≠ flagByte) : (s.rxByte b).Inv := by
  obtain ⟨hw, hs⟩ := h.receiving hp
  have hq : rxSettled (s.rxbuf ++ [b]) = true :=
    rxSettled_iff.mpr (.inr ⟨body ++ [b], by simp [hB], by simp [hw.no_flag hB, Ne.symm hb]⟩)
  have hread : lineEffect s.escLegacy b s.scan = scanBody s.escLegacy (s.rxbuf ++ [b]).tail := by
    simp [lineEffect, hb, hs, hB, scanBody_concat]
  rw [State.rxByte, State.receive_body b _ hw hB hb]
  exact State.inv_iff.mpr ⟨h.dataInv.arrival _ _, .inr ⟨hw.with_rxbuf hq _, hread⟩⟩

theorem State.Inv.rxByte {s : State} (h : s.Inv) (b : Byte) : (s.rxByte b).Inv := by
  by_cases hp : s.phase = .rx
  case neg =>
    obtain ⟨hidle, hb, -⟩ := h.atRest hp
    rw [State.rxByte_of_not_rx b hp]
    exact State.inv_iff.mpr ⟨h.dataInv.arrival _ _, .inl ⟨hidle, hb, rfl⟩⟩
  case pos =>
    by_cases hb : b = flagByte
    · exact h.rxByte_boundary hp (.inr hb)
    · obtain hnil | ⟨body, hB, -⟩ := rxSettled_iff.mp (h.quiescent hp).2
      · exact h.rxByte_boundary hp (.inl hnil)
      · exact h.rxByte_body hp hB hb

theorem State.Inv.rxBytes {s : State} (h : s.Inv) (bytes : List Byte) : (s.rxBytes bytes).Inv := by
  induction bytes generalizing s with
  | nil => exact h
  | cons b bytes ih => exact ih (h.rxByte b)

/-- A tick that leaves time on the timer does nothing else (43_transport_session.md R218). -/
theorem State.Inv.countDown {s : State} (h : s.Inv) (hp : s.phase = .rx) (ht : s.countDown.timer ≠ 0) :
    s.countDown.Inv := by
  obtain ⟨⟨-, hb, -, hq⟩, hs⟩ := h.receiving hp
  exact State.inv_iff.mpr ⟨{ h.dataInv with }, .inr ⟨⟨hp, hb, ht, hq⟩, hs⟩⟩

theorem State.Inv.tick_counts {s : State} (h : s.Inv) (hp : s.phase = .rx) (ht : s.countDown.timer ≠ 0) :
    s.tick = s.countDown := by
  rw [State.tick, if_pos hp, State.settle_quiescent (s := s.countDown) (h.quiescent hp).2 ht,
    (h.countDown hp ht).retireScan_eq]

/-- The tick that brings the timer to 0 ends the operation with Timeout (R219). -/
theorem State.Inv.tick_expires {s : State} (h : s.Inv) (hp : s.phase = .rx) (ht : s.countDown.timer = 0) :
    s.tick = (s.countDown.fail .timeout).clearScan := by
  rw [State.tick, if_pos hp, State.settle_timeout (s := s.countDown) (h.quiescent hp).2 ht,
    State.retireScan_of_not_rx (by simp)]

theorem State.tick_of_not_rx {s : State} (hp : s.phase ≠ .rx) : s.tick = s := if_neg hp

theorem State.Inv.tick {s : State} (h : s.Inv) : s.tick.Inv := by
  by_cases hp : s.phase = .rx
  case neg => exact (State.tick_of_not_rx hp).symm ▸ h
  case pos =>
    by_cases ht : s.countDown.timer = 0
    · have hd : s.countDown.DataInv := { h.dataInv with }
      rw [h.tick_expires hp ht]
      exact State.inv_iff.mpr ⟨{ hd.fail .timeout with }, .inl ⟨rfl, rfl, rfl⟩⟩
    · rw [h.tick_counts hp ht]
      exact h.countDown hp ht

theorem State.Inv.hostWritten {s t : State} (h : s.Inv) (hb : s.busy = false) (ht : s.HostWritten t) : t.Inv := by
  refine State.inv_iff.mpr ⟨h.dataInv.hostWritten ht, .inl ?_⟩
  have hrest := h.atRest_of_idle hb
  cases ht <;> exact hrest

/-- An atomic operation leaves the block at rest (20_memory.md R78). -/
theorem State.AtRest.finish {s : State} (h : s.scan = Scan.zero) (c : Code) : (s.finish c).AtRest := ⟨rfl, rfl, h⟩

theorem length_stuff1_le (x : Bool) (b : Byte) : (stuff1 x b).length ≤ 2 := by
  unfold stuff1
  split_ifs <;> simp

theorem length_stuff_le (x : Bool) (l : List Byte) : (stuff x l).length ≤ 2 * l.length := by
  induction l with
  | nil => simp
  | cons b l ih =>
    have := length_stuff1_le x b
    simp only [stuff_cons, List.length_append, List.length_cons]
    omega

/-- A frame of at most 255 payload bytes fits WIRE: the LEN byte of the longest one, 0xFF, is not escaped
(42_frame_codec.md R166). -/
theorem length_wireOf_le (x : Bool) (addr cmd : Byte) {payload : List Byte} (chk : Byte) (h : payload.length ≤ 255) :
    (wireOf x addr cmd payload chk).length ≤ wireMax := by
  have hlen : (stuff1 x (BitVec.ofNat 8 payload.length)).length + 2 * payload.length ≤ 511 := by
    by_cases h255 : payload.length = 255
    · have hone : (stuff1 x (BitVec.ofNat 8 255)).length = 1 := by cases x <;> decide
      rw [h255, hone]
    · have := length_stuff1_le x (BitVec.ofNat 8 payload.length)
      omega
  have haddr := length_stuff1_le x addr
  have hcmd := length_stuff1_le x cmd
  have hpayload := length_stuff_le x payload
  have hchk := length_stuff1_le x chk
  simp only [wireOf, innerBytes, summed, wireMax, stuff_append, stuff_cons, stuff_nil, List.length_cons,
    List.length_append, List.length_nil]
  omega

theorem State.Inv.encode {s t : State} (h : s.Inv) (ht : execEncode s = .next t) : t.Inv := by
  have hd : s.startOp.DataInv := { h.dataInv with }
  obtain ⟨hb, ⟨-, rfl⟩ | ⟨payload, hlen, -, rfl⟩⟩ := execEncode_cases ht
  · exact State.inv_iff.mpr ⟨hd.finish _, .inl (.finish (h.atRest_of_idle hb).2.2 _)⟩
  · have hw := hd.storeWire (length_wireOf_le s.escLegacy s.reqAddr s.reqCmd (cksumGen s.reqAddr s.reqCmd payload) hlen)
    exact State.inv_iff.mpr ⟨{ hw with }, .inl (.finish rfl _)⟩

theorem State.Inv.decode {s t : State} (h : s.Inv) (ht : execDecode s = .next t) : t.Inv := by
  have hd : s.startOp.clearScan.DataInv := { h.dataInv with }
  obtain ⟨-, raw, -, ⟨f, hf, rfl⟩ | ⟨e, -, rfl⟩⟩ := execDecode_cases ht
  · exact State.inv_iff.mpr ⟨(hd.storeFrame (decodeFrame_payload_le hf)).finish _, .inl (.finish rfl _)⟩
  · exact State.inv_iff.mpr ⟨hd.fail _, .inl (.finish rfl _)⟩

theorem State.Inv.xfer {s t : State} (h : s.Inv) (ht : execXfer s = .next t) : t.Inv := by
  have hd := h.dataInv.startXfer
  obtain ⟨hb, ⟨-, rfl⟩ | ⟨payload, -, -, rfl⟩⟩ := execXfer_cases ht
  · exact State.inv_iff.mpr ⟨hd.fail _, .inl ⟨rfl, rfl, (h.atRest_of_idle hb).2.2⟩⟩
  · have hset := State.settle_settled (s.startXfer.transmit
      (wireOf s.escLegacy s.reqAddr s.reqCmd payload (cksumGen s.reqAddr s.reqCmd payload)))
    refine State.retireScan_inv { (hd.transmit _).settled hset with } ?_
    exact (hset.ends_or_waits rfl rfl).imp_right fun ⟨hw, _⟩ => ⟨hw, fun _ => rfl⟩

theorem State.applyReset_inv (s : State) : s.applyReset.Inv := { resetMeetsTheInvariant with }

theorem State.Inv.handled {s t : State} {e : Input} (h : s.Inv) (ht : s.Handled e t) : t.Inv := by
  cases ht with
  | hostRead v => exact { h with }
  | ignored => exact h
  | hostWrite hb hw => exact h.hostWritten hb hw
  | encode ht => exact h.encode ht
  | decode ht => exact h.decode ht
  | xfer hop ht => exact h.xfer ht
  | received bytes => exact h.rxBytes bytes
  | tick => exact h.tick
  | reset => exact State.applyReset_inv s

/-- Settles O55: by the ways an input is handled. -/
theorem everyStepKeepsTheInvariant : Obligations.EveryStepKeepsTheInvariant := by
  intro s t h ht
  obtain ⟨-, rfl⟩ | ⟨e, rest, -, he⟩ := step_cases ht
  · exact h
  · have hin : ({ s with inputs := rest } : State).Inv := { h with }
    exact hin.handled he

end Sys2Proof.Machine

/-! ## Settling O57 and O58: what a step does to TXOUT and to RESULT -/

namespace Sys2Proof.Machine

open Config

theorem State.receive_txout (s : State) (b : Byte) (effect : Scan → Scan) : (s.receive b effect).txout = s.txout := by
  by_cases hp : s.phase = .rx
  · obtain ⟨sc, h⟩ := State.receive_of_rx b effect hp
    rw [h, State.retireScan_txout, (State.settle_sameOperands _).txout]
  · rw [State.receive_of_not_rx b effect hp]

@[simp] theorem State.rxBytes_txout (s : State) (bytes : List Byte) : (s.rxBytes bytes).txout = s.txout := by
  induction bytes generalizing s with
  | nil => rfl
  | cons b bytes ih => rw [State.rxBytes_cons, ih, State.rxByte, State.receive_txout]

@[simp] theorem State.tick_txout (s : State) : s.tick.txout = s.txout := by
  unfold State.tick
  split_ifs
  · rw [State.retireScan_txout, (State.settle_sameOperands _).txout, State.countDown_txout]
  · rfl

theorem State.HostWritten.txout {s t : State} (h : s.HostWritten t) : t.txout = s.txout := by
  cases h <;> rfl

theorem execEncode_txout {s t : State} (h : execEncode s = .next t) : t.txout = s.txout := by
  obtain ⟨-, ⟨-, rfl⟩ | ⟨payload, -, -, rfl⟩⟩ := execEncode_cases h <;> rfl

theorem execDecode_txout {s t : State} (h : execDecode s = .next t) : t.txout = s.txout := by
  obtain ⟨-, raw, -, ⟨f, -, rfl⟩ | ⟨e, -, rfl⟩⟩ := execDecode_cases h <;> rfl

/-- XFER sends nothing, or its encoded request whole (43_transport_session.md R193, R195). -/
theorem execXfer_txout {s t : State} (h : execXfer s = .next t) :
    t.txout = s.txout ∨ ∃ payload w, s.reqPayload = some payload ∧
      encodeFrame s.escLegacy s.reqAddr s.reqCmd payload = .ok w ∧ t.txout = s.txout ++ w := by
  obtain ⟨-, ⟨-, rfl⟩ | ⟨payload, hlen, hq, rfl⟩⟩ := execXfer_cases h
  · exact .inl rfl
  · refine .inr ⟨payload, _, hq, encodeFrame_of_le hlen, ?_⟩
    rw [State.retireScan_txout, State.openScan_txout, (State.settle_sameOperands _).txout]
    rfl

/-- Of the ways an input is handled, XFER alone appends to TXOUT and reset alone empties it (10_state.md R42). -/
theorem State.Handled.txout {s t : State} {e : Input} (h : s.Handled e t) :
    t.txout = s.txout ∨ (e = .reset ∧ t.txout = []) ∨
      ∃ v payload w, e = .writeReg 0x00 v ∧ (v.setWidth 8 : Byte) = 0x03 ∧ s.busy = false ∧
        s.reqPayload = some payload ∧ encodeFrame s.escLegacy s.reqAddr s.reqCmd payload = .ok w ∧
        t.txout = s.txout ++ w := by
  cases h with
  | hostRead v => exact .inl rfl
  | ignored => exact .inl rfl
  | hostWrite hb hw => exact .inl hw.txout
  | encode ht => exact .inl (execEncode_txout ht)
  | decode ht => exact .inl (execDecode_txout ht)
  | received bytes => exact .inl (s.rxBytes_txout bytes)
  | tick => exact .inl s.tick_txout
  | reset => exact .inr (.inl ⟨rfl, rfl⟩)
  | @xfer v _ hop ht =>
    refine (execXfer_txout ht).imp_right fun ⟨payload, w, hq, hw, htx⟩ => .inr ?_
    exact ⟨v, payload, w, rfl, hop, (execXfer_cases ht).1, hq, hw, htx⟩

/-- Settles O57. -/
theorem onlyTheStartOfXferTransmits : Obligations.OnlyTheStartOfXferTransmits := by
  intro s t ht
  obtain ⟨-, rfl⟩ | ⟨e, rest, hin, he⟩ := step_cases ht
  · exact .inl rfl
  obtain hsame | ⟨rfl, hempty⟩ | ⟨v, payload, w, rfl, hop, hb, hq, hw, htx⟩ := he.txout
  · exact .inl hsame
  · exact .inr (.inl ⟨rest, hin, hempty⟩)
  · obtain ⟨hlen, hread⟩ := State.reqPayload_eq_some.mp hq
    exact .inr (.inr ⟨v, rest, payload, w, hin, hop, hb, hlen, hread, hw, htx⟩)

/-- A block that is busy in `t` was busy in `s`, and RESULT has not been written between them (10_state.md R34). -/
def State.HoldsResult (s t : State) : Prop := t.busy = true → s.busy = true ∧ t.result = s.result

theorem State.HoldsResult.refl (s : State) : s.HoldsResult s := fun hb => ⟨hb, rfl⟩

theorem State.HoldsResult.trans {s u t : State} (h : s.HoldsResult u) (h' : u.HoldsResult t) : s.HoldsResult t := by
  intro hb
  obtain ⟨hub, hut⟩ := h' hb
  obtain ⟨hsb, hsu⟩ := h hub
  exact ⟨hsb, hut.trans hsu⟩

theorem State.settle_retireScan_holdsResult (s : State) : s.HoldsResult s.settle.retireScan := by
  intro hb
  rw [State.retireScan_busy] at hb
  rw [State.retireScan_result]
  exact s.settle_settled.result_of_busy hb

theorem State.receive_holdsResult (s : State) (b : Byte) (effect : Scan → Scan) :
    s.HoldsResult (s.receive b effect) := by
  by_cases hp : s.phase = .rx
  · obtain ⟨sc, h⟩ := State.receive_of_rx b effect hp
    rw [h]
    exact State.settle_retireScan_holdsResult { s with rxbuf := s.rxbuf ++ [b], scan := sc }
  · rw [State.receive_of_not_rx b effect hp]
    exact .refl s

theorem State.rxBytes_holdsResult (s : State) (bytes : List Byte) : s.HoldsResult (s.rxBytes bytes) := by
  induction bytes generalizing s with
  | nil => exact .refl s
  | cons b bytes ih => exact (s.receive_holdsResult b _).trans (ih _)

theorem State.tick_holdsResult (s : State) : s.HoldsResult s.tick := by
  unfold State.tick
  split_ifs
  · exact s.countDown.settle_retireScan_holdsResult
  · exact .refl s

theorem State.HostWritten.result {s t : State} (h : s.HostWritten t) : t.result = s.result := by
  cases h <;> rfl

/-- ENCODE and DECODE are atomic: the block is not busy behind them (20_memory.md R78). -/
theorem execEncode_busy {s t : State} (h : execEncode s = .next t) : t.busy = false := by
  obtain ⟨-, ⟨-, rfl⟩ | ⟨payload, -, -, rfl⟩⟩ := execEncode_cases h <;> rfl

theorem execDecode_busy {s t : State} (h : execDecode s = .next t) : t.busy = false := by
  obtain ⟨-, raw, -, ⟨f, -, rfl⟩ | ⟨e, -, rfl⟩⟩ := execDecode_cases h <;> rfl

theorem execXfer_result_of_busy {s t : State} (h : execXfer s = .next t) (hb : t.busy = true) :
    t.result = s.result := by
  obtain ⟨-, ⟨-, rfl⟩ | ⟨payload, -, -, rfl⟩⟩ := execXfer_cases h
  · cases hb
  · rw [State.retireScan_busy, State.openScan_busy] at hb
    rw [State.retireScan_result, State.openScan_result]
    exact ((State.settle_settled _).result_of_busy hb).2

theorem State.Handled.result_of_busy {s t : State} {e : Input} (h : s.Handled e t) (hb : t.busy = true) :
    t.result = s.result := by
  cases h with
  | hostRead v => rfl
  | ignored => rfl
  | hostWrite _ hw => exact hw.result
  | encode ht => rw [execEncode_busy ht] at hb; cases hb
  | decode ht => rw [execDecode_busy ht] at hb; cases hb
  | xfer _ ht => exact execXfer_result_of_busy ht hb
  | received bytes => exact (s.rxBytes_holdsResult bytes hb).2
  | tick => exact (s.tick_holdsResult hb).2
  | reset => cases hb

/-- Settles O58. -/
theorem resultIsHeldWhileBusy : Obligations.ResultIsHeldWhileBusy := by
  intro s t ht hb
  obtain ⟨-, rfl⟩ | ⟨e, rest, -, he⟩ := step_cases ht
  · rfl
  · exact he.result_of_busy hb

end Sys2Proof.Machine

/-! ## Settling O39: ticks -/

namespace Sys2Proof.Machine

theorem State.countDown_timer_toNat (s : State) : s.countDown.timer.toNat = s.timer.toNat - 1 := by
  rw [State.countDown_timer]
  split_ifs with h
  · simp [h]
  · have : s.timer.toNat ≠ 0 := fun h0 => h (BitVec.eq_of_toNat_eq h0)
    bv_omega

theorem State.Inv.tick_iterate {s : State} (h : s.Inv) (n : Nat) : (State.tick^[n] s).Inv := by
  induction n generalizing s with
  | zero => exact h
  | succ n ih => exact ih h.tick

theorem State.Inv.tick_iterate_counts {s : State} {n : Nat} (h : s.Inv) (hp : s.phase = .rx) (hn : n < s.timer.toNat) :
    State.tick^[n] s = { s with timer := BitVec.ofNat 32 (s.timer.toNat - n) } := by
  induction n generalizing s with
  | zero => simp
  | succ n ih =>
    have hc := s.countDown_timer_toNat
    have ht : s.countDown.timer ≠ 0 := by
      intro h0
      rw [h0] at hc
      simp at hc
      omega
    rw [Function.iterate_succ_apply, h.tick_counts hp ht, ih (h.countDown hp ht) hp (by omega), hc, Nat.sub_sub,
      Nat.add_comm 1]
    rfl

/-- The tick that finds 1 in TIMER (43_transport_session.md R219). -/
theorem State.Inv.tick_last {s : State} (h : s.Inv) (hp : s.phase = .rx) (ht : s.timer = 1) :
    s.tick = (({ s with timer := 0 } : State).fail .timeout).clearScan := by
  have hc : s.countDown = { s with timer := 0 } := by
    rw [State.countDown, ht]
    rfl
  rw [h.tick_expires hp (by rw [hc]), hc]

/-- Settles O39: all ticks but the last count down, and the last finds 1 in TIMER. -/
theorem ticksRunTheTimerDown : Obligations.TicksRunTheTimerDown := by
  refine ⟨fun s => ⟨rfl, State.tick_of_not_rx⟩, fun s n h hp hn => h.tick_iterate_counts hp hn,
    fun s h hp => ⟨_, rfl, ?_⟩⟩
  obtain ⟨n, hn⟩ : ∃ n, s.timer.toNat = n + 1 :=
    Nat.exists_eq_succ_of_ne_zero fun h0 => (h.quiescent hp).1 (BitVec.eq_of_toNat_eq h0)
  have hbefore := h.tick_iterate_counts (n := n) hp (by omega)
  have hinv := h.tick_iterate n
  rw [hn, Nat.add_sub_cancel_left] at hbefore
  rw [hn, Function.iterate_succ_apply']
  rw [hbefore] at hinv ⊢
  rw [hinv.tick_last hp rfl]
  rfl

end Sys2Proof.Machine

/-! ## Settling O41: a received byte outside the receive phase -/

namespace Sys2Proof.Machine

/-- Every wire byte class is the arrival of its byte, with the effect of the class on the scan state
(30_encoding.md R103 to R112). -/
theorem exec_eq_receive {i : Instr} {b : Byte} (hch : channelOf i = some .wire ∨ channelOf i = some .escaped)
    (hb : encode i = [b]) (s : State) : ∃ effect, exec i s = .next (s.receive b effect) := by
  cases i
  case encode | decode | xfer | cksumGen | cksumVfy | stuff | unstuff | frame => simp [channelOf] at hch
  all_goals
    obtain rfl := List.singleton_inj.mp hb
    exact ⟨_, rfl⟩

/-- Settles O41. -/
theorem bytesReceivedOutsideTheReceivePhase : Obligations.BytesReceivedOutsideTheReceivePhase := by
  intro s i b hch hb hp
  obtain ⟨effect, h⟩ := exec_eq_receive hch hb s
  rw [h, State.receive_of_not_rx b effect hp]

end Sys2Proof.Machine

/-! ## Settling O5, O7, O8, O9, O10 and O14: host accesses, and bytes that hold no value -/

namespace Sys2Proof.Machine

open Config

theorem handle_readReg_of_eq {s : State} {num : Byte} {w v : Word32} (h : s.readRegister num = .ok w) (hw : w = v) :
    handle (.readReg num) s = .next { s with hostData := v } := by
  simp only [handle, hostReadReg, h, hw]

theorem handle_readReg_of_error {s : State} {num : Byte} {r : Refusal} (h : s.readRegister num = .error r) :
    handle (.readReg num) s = .refused r := by
  simp only [handle, hostReadReg, h]

/-- The response registers while they hold no frame (10_state.md R47). -/
theorem State.readRegister_response_invalid {s : State} {num : Byte} (hv : s.rspValid = false) (hlo : 0x0A ≤ num)
    (hhi : num ≤ 0x0D) : s.readRegister num = .error .rspNotValid := by
  have hlo : 10 ≤ num.toNat := hlo
  have hhi : num.toNat ≤ 13 := hhi
  obtain h | h | h | h : num.toNat = 10 ∨ num.toNat = 11 ∨ num.toNat = 12 ∨ num.toNat = 13 := by omega
  all_goals simp [State.readRegister, h, hv]

theorem State.readRegister_reserved {num : Byte} (hnum : 0x0E ≤ num) (s : State) : s.readRegister num = .ok 0 := by
  obtain ⟨n, hn⟩ : ∃ n, num.toNat = n + 14 := Nat.exists_eq_add_of_le' hnum
  rw [State.readRegister, hn]
  rfl

theorem hostWriteReg_reserved {num : Byte} (hnum : 0x0E ≤ num) (v : Word32) (s : State) :
    hostWriteReg num v s = .next s := by
  have hnum : 14 ≤ num.toNat := hnum
  unfold hostWriteReg
  split
  case h_7 => rfl
  all_goals omega

theorem whileIdle_of_idle {s : State} (hb : s.busy = false) (t : State) : whileIdle s t = .next t :=
  whileIdle_eq_next.mpr ⟨hb, rfl⟩

theorem hostWriteBuf_txpay {i : Nat} (hi : i < Buf.txpay.capacity) (v : Byte) (s : State) :
    hostWriteBuf .txpay i v s = whileIdle s { s with txpay := s.txpay.write i v } := if_neg (Nat.not_le.mpr hi)

theorem hostWriteBuf_wire {i : Nat} (hi : i < Buf.wire.capacity) (v : Byte) (s : State) :
    hostWriteBuf .wire i v s = whileIdle s { s with wire := s.wire.write i v } := if_neg (Nat.not_le.mpr hi)

theorem hostWriteBuf_rxpay {i : Nat} (hi : i < Buf.rxpay.capacity) (v : Byte) (s : State) :
    hostWriteBuf .rxpay i v s = whileIdle s s := if_neg (Nat.not_le.mpr hi)

theorem writeWireLen_of_le {s : State} {n : Word16} (hb : s.busy = false) (hn : n.toNat ≤ wireMax) :
    writeWireLen n s = .next { s with wireLen := n } := by
  rw [writeWireLen, if_neg (by simp [hb]), if_neg (Nat.not_lt.mpr hn)]

/-- Settles O5. -/
theorem resetLeavesTheStatedValues : Obligations.ResetLeavesTheStatedValues :=
  ⟨rfl, rfl, rfl, rfl, rfl, rfl, rfl, rfl, rfl, fun _ => State.readRegister_response_invalid rfl,
    fun _ => ⟨rfl, rfl, rfl⟩, rfl, rfl, rfl, rfl, rfl, rfl⟩

theorem flagBit_getLsbD (b : Bool) (i : Nat) : (flagBit b).getLsbD i = (decide (i = 0) && b) := by
  cases b <;> simp [flagBit, BitVec.getLsbD_one]

theorem Phase.bits_getLsbD_of_two_le (p : Phase) {i : Nat} (hi : 2 ≤ i) : p.bits.getLsbD i = false := by
  have hlt : p.bits.toNat < 2 ^ 2 := by cases p <;> decide
  exact Nat.testBit_lt_two_pow (hlt.trans_le (Nat.pow_le_pow_right (by decide) hi))

/-- Bit by bit, the fields of STATUS do not overlap (10_state.md R32). -/
theorem statusWord_getLsbD (s : State) {i : Nat} (hi : i < 8) :
    (statusWord s).getLsbD i =
      if i = 0 then s.busy else if i < 3 then s.phase.bits.getLsbD (i - 1)
      else if i = 3 then s.resynced else if i = 4 then s.rspValid else false := by
  simp only [statusWord, BitVec.getLsbD_or, BitVec.getLsbD_shiftLeft, flagBit_getLsbD, hi]
  by_cases hphase : i < 3
  · rcases i with _ | i
    · simp
    · simp [hphase, show i < 3 by omega]
  · rw [Phase.bits_getLsbD_of_two_le _ (by omega)]
    rcases show i = 3 ∨ i = 4 ∨ 5 ≤ i by omega with rfl | rfl | h5
    · simp
    · simp
    · simp [show i ≠ 0 by omega, hphase, show i ≠ 3 by omega, show i ≠ 4 by omega, show ¬ i - 3 = 0 by omega,
        show ¬ i - 4 = 0 by omega]

theorem statusWord_phase (s : State) : (statusWord s).extractLsb' 1 2 = s.phase.bits.setWidth 2 := by
  ext i hi
  rw [BitVec.getElem_extractLsb', statusWord_getLsbD s (by omega)]
  simp [show 1 + i < 3 by omega]

theorem statusWord_reserved (s : State) : (statusWord s).extractLsb' 5 3 = 0 := by
  ext i hi
  rw [BitVec.getElem_extractLsb', statusWord_getLsbD s (by omega)]
  rw [if_neg (by omega), if_neg (by omega), if_neg (by omega), if_neg (by omega)]
  simp
theorem flagBit_setWidth (b : Bool) : (flagBit b).setWidth 32 = if b then (1 : Word32) else 0 := by
  cases b <;> rfl

/-- A response register while RSP_VALID = 1 (10_state.md R47). -/
theorem handle_readReg_response {s : State} {num w : Byte} {v : Word32} (hv : s.rspValid = true)
    (h : s.readRegister num = if s.rspValid then .ok (w.setWidth 32) else .error .rspNotValid)
    (hw : w.setWidth 32 = v) : handle (.readReg num) s = .next { s with hostData := v } :=
  handle_readReg_of_eq (h.trans (if_pos hv)) hw

/-- Settles O7: one conjunct for each register number. -/
theorem registersReadAsLaidOut : Obligations.RegistersReadAsLaidOut := by
  intro s
  refine ⟨rfl, ⟨statusWord s, rfl, statusWord_getLsbD s (i := 0) (by decide), (statusWord_phase s).trans ?phase,
      statusWord_getLsbD s (i := 3) (by decide), statusWord_getLsbD s (i := 4) (by decide), statusWord_reserved s⟩,
    handle_readReg_of_eq rfl (flagBit_setWidth s.escLegacy),
    handle_readReg_of_eq (w := (resultWord s).setWidth 32) rfl ?result,
    handle_readReg_of_eq (w := (firstErrWord s).setWidth 32) rfl ?firstErr, rfl, rfl, rfl, rfl, rfl,
    fun hv => ⟨handle_readReg_response hv rfl rfl, handle_readReg_response hv rfl rfl,
      handle_readReg_response hv rfl rfl, handle_readReg_response hv rfl (flagBit_setWidth s.rspIsResponse)⟩⟩
  case phase => cases s.phase <;> rfl
  case result =>
    unfold resultWord
    cases s.result <;> rfl
  case firstErr =>
    unfold firstErrWord
    rcases s.firstErr with _ | ⟨_ | _ | _ | _⟩ <;> rfl

/-- Settles O8. -/
theorem hostReadsHaveNoSideEffect : Obligations.HostReadsHaveNoSideEffect := by
  refine ⟨fun s t e he ht => ?repeatable, fun s i b hi hb => ?txpay, fun s i b hi hb => ?wire,
    fun s i b hv hi hb => ?rxpay⟩
  case repeatable =>
    obtain ⟨num, rfl⟩ | ⟨buf, i, rfl⟩ := he
    · obtain ⟨v, -, rfl⟩ := hostReadReg_cases ht
      exact ⟨rfl, (hostReadReg_hostData num s v).trans ht⟩
    · obtain ⟨v, rfl⟩ := hostReadBuf_cases ht
      exact ⟨rfl, (hostReadBuf_hostData buf i s v).trans ht⟩
  case txpay => rw [handle, hostReadBuf_txpay hi, hb]; rfl
  case wire => rw [handle, hostReadBuf_wire hi, hb]; rfl
  case rxpay =>
    have hi255 : i < 255 := by have := s.rspLen.isLt; omega
    rw [handle, hostReadBuf_rxpay hi255, if_pos hv, if_neg (Nat.not_le.mpr hi), hb]
    rfl

/-- Settles O9. -/
theorem idleHostWritesReachTheirTarget : Obligations.IdleHostWritesReachTheirTarget := by
  intro s hb
  refine ⟨fun v => ⟨?_, ?_, ?_, ?_, ?_⟩, fun n hn => ?wireLen, fun i b hi => ?txpay, fun i b hi => ?wire⟩
  case wireLen =>
    have hcut : (n.setWidth 32).setWidth 16 = n := by simp
    exact (congrArg (writeWireLen · s) hcut).trans (writeWireLen_of_le hb hn)
  case txpay =>
    exact ⟨_, (hostWriteBuf_txpay hi b s).trans (whileIdle_of_idle hb _), rfl, fun j => Memory.read_write s.txpay i j b⟩
  case wire =>
    exact ⟨_, (hostWriteBuf_wire hi b s).trans (whileIdle_of_idle hb _), rfl, fun j => Memory.read_write s.wire i j b⟩
  all_goals exact whileIdle_of_idle hb _

/-- Settles O10. -/
theorem reservedAndReadOnlyAccesses : Obligations.ReservedAndReadOnlyAccesses := by
  refine ⟨fun s num v hnum => ⟨handle_readReg_of_eq (State.readRegister_reserved hnum s) rfl, ?reserved⟩,
    fun s num v hnum => ?readOnly,
    fun s i v hb hi => (hostWriteBuf_rxpay hi v s).trans (whileIdle_of_idle hb s)⟩
  case reserved =>
    have hne : num ≠ 0x00 := by rintro rfl; exact absurd hnum (by decide)
    rw [handle, if_neg hne, hostWriteReg_reserved hnum]
  case readOnly =>
    simp only [List.mem_cons, List.not_mem_nil, or_false] at hnum
    obtain rfl | rfl | rfl | rfl | rfl | rfl | rfl := hnum <;> rfl

/-! ### Operands that hold no value -/

theorem State.reqPayload_eq_none {s : State} :
    s.reqPayload = none ↔ ∃ i, i < s.reqPlen.toNat ∧ s.txpay.read i = none := by
  simp [State.reqPayload, Memory.readFrom_eq_none]

theorem State.rawWire_eq_none {s : State} : s.rawWire = none ↔ ∃ i, i < s.wireLen.toNat ∧ s.wire.read i = none := by
  simp [State.rawWire, Memory.readFrom_eq_none]

section
variable {s : State} (hb : s.busy = false)
include hb

theorem execEncode_of_unwritten (hl : s.reqPlen.toNat ≤ 255) (hq : s.reqPayload = none) :
    execEncode s = .refused (.unwrittenByte .txpay) := by
  simp [execEncode, hb, State.plenTooLarge_of_le hl, hq]

theorem execXfer_of_unwritten (hl : s.reqPlen.toNat ≤ 255) (hq : s.reqPayload = none) :
    execXfer s = .refused (.unwrittenByte .txpay) := by
  simp [execXfer, hb, State.plenTooLarge_of_le hl, hq]

theorem execDecode_of_unwritten (hr : s.rawWire = none) : execDecode s = .refused (.unwrittenByte .wire) := by
  simp [execDecode, hb, hr]

end

/-- Settles O14: one conjunct for each access that needs a byte. -/
theorem valuelessReadsAreRefused : Obligations.ValuelessReadsAreRefused := by
  refine ⟨fun s i hb hl hi hn => ?request, fun s i hb hi hn => ?raw, fun s num hv hlo hhi => ?response,
    fun s i hv hi => ?rxpayInvalid, fun s i hv hle hi => ?rxpayAbove, fun s i hi hn => ?txpay, fun s i hi hn => ?wire⟩
  case request =>
    have hq := State.reqPayload_eq_none.mpr ⟨i, hi, hn⟩
    exact ⟨execEncode_of_unwritten hb hl hq, execXfer_of_unwritten hb hl hq⟩
  case raw => exact execDecode_of_unwritten hb (State.rawWire_eq_none.mpr ⟨i, hi, hn⟩)
  case response => exact handle_readReg_of_error (State.readRegister_response_invalid hv hlo hhi)
  case rxpayInvalid => rw [handle, hostReadBuf_rxpay hi, if_neg (by simp [hv])]
  case rxpayAbove => rw [handle, hostReadBuf_rxpay hi, if_pos hv, if_pos hle]
  case txpay => rw [handle, hostReadBuf_txpay hi, hn]; rfl
  case wire => rw [handle, hostReadBuf_wire hi, hn]; rfl

end Sys2Proof.Machine

/-! ## Settling O13 and O60: accesses outside a buffer, and the environment's inputs -/

namespace Sys2Proof.Machine

theorem hostWriteBuf_of_capacity_le {buf : Buf} {i : Nat} (hi : buf.capacity ≤ i) (v : Byte) (s : State) :
    hostWriteBuf buf i v s = .fault (.noSuchByte buf i) := if_pos hi

/-- Settles O13: the bound is the buffer's capacity, which both accesses test first. -/
theorem indexOutsideABufferFaults : Obligations.IndexOutsideABufferFaults := by
  intro s buf i v hi
  have hcap : buf.capacity ≤ i := by cases buf <;> exact hi
  exact ⟨hostReadBuf_of_capacity_le hcap s, hostWriteBuf_of_capacity_le hcap v s⟩

theorem handle_rxByte (b : Byte) (s : State) : handle (.rxByte b) s = .next (s.rxByte b) := exec_decodeReceived s b

theorem handle_rx (bytes : List Byte) (s : State) : handle (.rx bytes) s = .next (s.rxBytes bytes) :=
  receiveDelivery_eq bytes s

/-- Settles O60: each of the four inputs is handled into a state with a name of its own. -/
theorem theEnvironmentIsNeverRefused : Obligations.TheEnvironmentIsNeverRefused := by
  intro s e rest hin he
  rw [State.GoesOn, step_of_inputs_cons hin]
  obtain ⟨b, rfl⟩ | ⟨bytes, rfl⟩ | rfl | rfl := he
  · exact ⟨_, handle_rxByte b _⟩
  · exact ⟨_, handle_rx bytes _⟩
  · exact ⟨_, rfl⟩
  · exact ⟨_, rfl⟩

end Sys2Proof.Machine

/-! ## Settling O53: what the environment does later makes no difference to what a byte does -/

namespace Sys2Proof.Machine

open Config

/-- The block with other inputs to come (log entry 1). -/
def State.withInputs (s : State) (l : List Input) : State := { s with inputs := l }

/-- A change of the state that a step of the synchronizer leaves. -/
def SyncStep.map (g : State → State) : SyncStep → SyncStep
  | .again s => .again (g s)
  | .done s => .done (g s)
  | .waiting s => .waiting (g s)

section
variable (s : State) (l : List Input)

theorem State.takeCandidate_withInputs (body after : List Byte) :
    (s.withInputs l).takeCandidate body after = (s.takeCandidate body after).map (·.withInputs l) := by
  cases hd : decodeFrame s.escLegacy (flagByte :: (body ++ [flagByte])) with
  | ok f =>
    rw [State.takeCandidate_ok hd, State.takeCandidate_ok (s := s.withInputs l) hd, State.correlate_eq_finish,
      State.correlate_eq_finish]
    rfl
  | error e =>
    cases hr : s.resynced with
    | false => rw [State.takeCandidate_first hd hr, State.takeCandidate_first (s := s.withInputs l) hd hr]; rfl
    | true => rw [State.takeCandidate_second hd hr, State.takeCandidate_second (s := s.withInputs l) hd hr]; rfl

theorem State.stall_withInputs : (s.withInputs l).stall = s.stall.map (·.withInputs l) :=
  (apply_ite (SyncStep.map (State.withInputs · l)) (s.timer = 0) (.done (s.fail .timeout)) (.waiting s)).symm

theorem State.syncStep_withInputs : (s.withInputs l).syncStep = s.syncStep.map (·.withInputs l) := by
  rcases s.syncStep_cases with ⟨b, rest, hB, hb, hs⟩ | ⟨rest, hB, hs⟩ | ⟨body, after, hB, hne, hn, hs⟩ | ⟨hq, hs⟩
  · rw [hs, State.syncStep_hunt (s := s.withInputs l) hB hb]; rfl
  · rw [hs, State.syncStep_adjacent (s := s.withInputs l) hB]; rfl
  · rw [hs, State.syncStep_candidate (s := s.withInputs l) hB hne hn]
    exact s.takeCandidate_withInputs l body after
  · rw [hs, State.syncStep_settled (s := s.withInputs l) hq]
    exact s.stall_withInputs l

theorem State.settleFor_withInputs (fuel : Nat) :
    State.settleFor fuel (s.withInputs l) = (State.settleFor fuel s).withInputs l := by
  induction fuel generalizing s with
  | zero => rfl
  | succ fuel ih =>
    simp only [State.settleFor, State.syncStep_withInputs]
    cases s.syncStep with
    | again u => exact ih u
    | done u => rfl
    | waiting u => rfl

theorem State.settle_withInputs : (s.withInputs l).settle = s.settle.withInputs l := s.settleFor_withInputs l _

theorem State.retireScan_withInputs : (s.withInputs l).retireScan = s.retireScan.withInputs l :=
  (apply_ite (State.withInputs · l) _ s s.clearScan).symm

theorem State.receive_withInputs (b : Byte) (effect : Scan → Scan) :
    (s.withInputs l).receive b effect = (s.receive b effect).withInputs l := by
  by_cases hp : s.phase = .rx
  · rw [State.receive, State.receive, if_pos hp, if_pos (by exact hp), ← State.retireScan_withInputs,
      ← State.settle_withInputs]
    rfl
  · rw [State.receive_of_not_rx b effect hp, State.receive_of_not_rx (s := s.withInputs l) b effect hp]
    rfl

theorem State.rxByte_withInputs (b : Byte) : (s.withInputs l).rxByte b = (s.rxByte b).withInputs l :=
  s.receive_withInputs l b (lineEffect s.escLegacy b)

end

theorem run_one (M : Host.Core) (s : M.State) : M.run 1 s = M.step s := by
  rw [Host.Core.run]
  cases M.step s <;> rfl

theorem run_succ_of_step {M : Host.Core} {s t : M.State} (h : M.step s = .next t) (k : Nat) :
    M.run (k + 1) s = M.run k t := by
  rw [Host.Core.run, h]

theorem step_rxByte (s : State) (b : Byte) (l : List Input) :
    core.step (s.withInputs (.rxByte b :: l)) = .next ((s.rxByte b).withInputs l) := by
  rw [← State.rxByte_withInputs]
  exact handle_rxByte b (s.withInputs l)

theorem step_rx (s : State) (bytes : List Byte) (l : List Input) :
    core.step (s.withInputs (.rx bytes :: l)) = .next ((s.withInputs l).rxBytes bytes) :=
  handle_rx bytes (s.withInputs l)

/-- Bytes that arrive one at a time, and other inputs behind them. -/
theorem run_rxByte_inputs (s : State) (bytes : List Byte) (rest : List Input) :
    Host.Core.run core bytes.length (s.withInputs (bytes.map Input.rxByte ++ rest)) =
      .next ((s.withInputs rest).rxBytes bytes) := by
  induction bytes generalizing s with
  | nil => rfl
  | cons b bytes ih =>
    rw [State.rxBytes_cons, State.rxByte_withInputs, ← ih]
    exact run_succ_of_step (step_rxByte s b (bytes.map Input.rxByte ++ rest)) bytes.length

/-- Settles O53: both runs end in the state that the bytes leave, received in order. -/
theorem deliveryGroupingIsInvisible : Obligations.DeliveryGroupingIsInvisible := by
  intro s bytes rest
  exact ((run_one core _).trans (step_rx s bytes rest)).trans (run_rxByte_inputs s bytes rest).symm

end Sys2Proof.Machine

/-! ## What a delimiter does in the receive phase -/

namespace Sys2Proof.Machine

open Config

/-- A delimiter behind nothing, or behind another one, leaves an opening delimiter alone (43_transport_session.md R204,
R207). -/
theorem State.Waiting.rxByte_flag_opens {s : State} (hw : s.Waiting) (hB : s.rxbuf = [] ∨ s.rxbuf = [flagByte]) :
    s.rxByte flagByte = { s with rxbuf := [flagByte], scan := Scan.zero } := by
  obtain ⟨sc, harrive⟩ := State.receive_of_rx flagByte (lineEffect s.escLegacy flagByte) hw.1
  have hset : ({ s with rxbuf := s.rxbuf ++ [flagByte], scan := sc } : State).settle =
      { s with rxbuf := [flagByte], scan := sc } := by
    have hquiet := State.settle_quiescent (s := { s with rxbuf := [flagByte], scan := sc }) rfl hw.2.2.1
    obtain hB | hB := hB
    · rw [hB]; exact hquiet
    · rw [hB]; exact (State.settle_adjacent rfl).trans hquiet
  rw [State.rxByte, harrive, hset, State.retireScan_of_no_body rfl]
  rfl

/-- The code that an XFER answered by the frame `f` ends with (R211). -/
def State.correlationCode (s : State) (f : Frame) : Code :=
  if f.addr ≠ s.reqAddr then .addressMismatch else if f.cmd ≠ s.reqCmd then .commandMismatch else .ok

theorem State.correlate_eq_finish_code (s : State) (f : Frame) : s.correlate f = s.finish (s.correlationCode f) :=
  s.correlate_eq_finish f

/-- RXBUF is an opening delimiter and these bytes behind it (R206, R208). -/
def State.behindFlag (s : State) (l : List Byte) (sc : Scan) : State := { s with rxbuf := flagByte :: l, scan := sc }

section
variable {s : State} {body : List Byte} (hw : s.Waiting) (hB : s.rxbuf = flagByte :: body)
include hw hB

/-- A delimiter behind an unfinished candidate completes it, and the framer runs (R206). -/
theorem State.Waiting.rxByte_flag_closes :
    ∃ sc, s.rxByte flagByte = (s.behindFlag (body ++ [flagByte]) sc).settle.retireScan := by
  obtain ⟨sc, harrive⟩ := State.receive_of_rx flagByte (lineEffect s.escLegacy flagByte) hw.1
  exact ⟨sc, by rw [State.rxByte, harrive, hB]; rfl⟩

variable (hne : body ≠ [])
include hne

/-- A candidate that decodes ends the operation, and nothing stays in RXBUF (R210, R211). -/
theorem State.Waiting.rxByte_flag_accepts {f : Frame}
    (hd : decodeFrame s.escLegacy (flagByte :: (body ++ [flagByte])) = .ok f) :
    s.rxByte flagByte = (({ s with rxbuf := [] }.storeFrame f).finish (s.correlationCode f)).clearScan := by
  obtain ⟨sc, hclose⟩ := hw.rxByte_flag_closes hB
  rw [hclose, State.settle_accepts (s := s.behindFlag (body ++ [flagByte]) sc) rfl hne (hw.no_flag hB) hd,
    State.correlate_eq_finish_code, State.retireScan_of_not_rx (by simp)]
  rfl

/-- The first candidate that fails is absorbed; its closing delimiter opens the next one (R212). -/
theorem State.Waiting.rxByte_flag_absorbs {e : DecodeErr}
    (hd : decodeFrame s.escLegacy (flagByte :: (body ++ [flagByte])) = .error e) (hr : s.resynced = false) :
    s.rxByte flagByte =
      { s with rxbuf := [flagByte], resynced := true, firstErr := some e, scan := Scan.zero } := by
  obtain ⟨sc, hclose⟩ := hw.rxByte_flag_closes hB
  rw [hclose, State.settle_absorbs (s := s.behindFlag (body ++ [flagByte]) sc) rfl hne (hw.no_flag hB) hd hr,
    State.settle_quiescent (by rfl) (by exact hw.2.2.1), State.retireScan_of_no_body rfl]
  rfl

/-- The second candidate that fails is the outcome; its closing delimiter stays (R213). -/
theorem State.Waiting.rxByte_flag_surfaces {e : DecodeErr}
    (hd : decodeFrame s.escLegacy (flagByte :: (body ++ [flagByte])) = .error e) (hr : s.resynced = true) :
    s.rxByte flagByte = ({ s with rxbuf := [flagByte] }.fail e.code).clearScan := by
  obtain ⟨sc, hclose⟩ := hw.rxByte_flag_closes hB
  rw [hclose, State.settle_surfaces (s := s.behindFlag (body ++ [flagByte]) sc) rfl hne (hw.no_flag hB) hd hr,
    State.retireScan_of_not_rx (by simp)]
  rfl

end

end Sys2Proof.Machine

/-! ## Settling O51: a whole frame -/

namespace Sys2Proof.Machine

open Config

/-- A frame stored and correlated is the answer, whatever bytes are buffered behind it (R210, R211; 20_memory.md R72). -/
theorem State.answered_of_stored (s : State) {f : Frame} (hf : f.payload.length ≤ 255) (left : List Byte) (sc : Scan) :
    s.Answered { (s.storeFrame f).finish (s.correlationCode f) with rxbuf := left, scan := sc } f left :=
  ⟨rfl, rfl, ofNat_length_toNat hf, Memory.read_ofList f.payload, rfl⟩

/-- A failed operation, whatever bytes are buffered behind it (R213; 60_exceptions.md R252). -/
theorem State.failedWith_of_failed (s : State) (c : Code) (left : List Byte) (sc : Scan) :
    s.FailedWith { (s.fail c) with rxbuf := left, scan := sc } c left := rfl

theorem flagByte_not_mem_stuff (x : Bool) (l : List Byte) : flagByte ∉ stuff x l := by
  induction l with
  | nil => simp
  | cons b l ih =>
    rw [stuff_cons, List.mem_append, not_or]
    refine ⟨?_, ih⟩
    cases hb : inEscSet x b with
    | true =>
      rw [stuff1_of_mem hb]
      obtain rfl | rfl | ⟨-, rfl | rfl⟩ := (inEscSet_iff x b).mp hb <;> decide
    | false =>
      rw [stuff1_of_not_mem hb, List.mem_singleton]
      rintro rfl
      cases hb

theorem stuff_ne_nil (x : Bool) {l : List Byte} (h : l ≠ []) : stuff x l ≠ [] := by
  intro hnil
  have hback := unstuff_stuff x l
  rw [hnil] at hback
  exact h (Except.ok.inj hback).symm

theorem eq_cksumGen_iff {addr cmd chk : Byte} {payload : List Byte} (hlen : payload.length ≤ 255) :
    chk = cksumGen addr cmd payload ↔
      chk.toNat = 255 - (addr.toNat + cmd.toNat + payload.length + byteSum payload) % 256 := by
  rw [← BitVec.toNat_inj, cksumGen, cks_toNat, summed, byteSum_cons, byteSum_cons, byteSum_cons,
    ofNat_length_toNat hlen, ← Nat.add_assoc, ← Nat.add_assoc]

/-- Of the five stages of decode, only the checksum can fail on what a FRAME puts on the wire (42_frame_codec.md R174). -/
theorem decodeFrame_wireOf (x : Bool) {addr cmd chk : Byte} {payload : List Byte} (hlen : payload.length ≤ 255) :
    decodeFrame x (wireOf x addr cmd payload chk) =
      if chk = cksumGen addr cmd payload then .ok ⟨addr, cmd, payload, true⟩ else .error .checksum := by
  have hvfy : cksumVfy (innerBytes addr cmd payload chk) = decide (chk = cksumGen addr cmd payload) := by
    rw [innerBytes, cksumVfy_concat, cksumGen, decide_eq_decide]
    exact eq_comm
  rw [wireOf, decodeFrame_delimited x (flagByte_not_mem_stuff x _), unstuff_stuff]
  simp only [innerBytes, summed, List.cons_append] at hvfy ⊢
  simp [parseInner, hvfy, ofNat_length_toNat hlen]

/-! ### The bytes of a FRAME behind its opening delimiter -/

section
variable {s : State} {addr cmd chk : Byte} {payload : List Byte} (hlen : payload.length ≤ 255) (hw : s.Waiting)
  (hB : s.rxbuf = [flagByte])
include hw hB

/-- The stuffed bytes join the candidate that the opening delimiter began, and the closing one completes it. -/
theorem State.Waiting.rxBytes_frame_tail (addr cmd : Byte) (payload : List Byte) (chk : Byte) :
    ∃ sc, (s.behindFlag (stuff s.escLegacy (innerBytes addr cmd payload chk)) sc).Waiting ∧
      s.rxBytes (wireOf s.escLegacy addr cmd payload chk).tail =
        (s.behindFlag (stuff s.escLegacy (innerBytes addr cmd payload chk)) sc).rxByte flagByte := by
  have hn := flagByte_not_mem_stuff s.escLegacy (innerBytes addr cmd payload chk)
  obtain ⟨sc, hbody⟩ := State.rxBytes_body hw hB hn
  refine ⟨sc, hw.with_rxbuf (rxSettled_iff.mpr (.inr ⟨_, rfl, hn⟩)) sc, ?_⟩
  rw [wireOf, List.tail_cons, State.rxBytes_append, hbody]
  rfl

include hlen

theorem State.Waiting.rxBytes_frame_tail_right (hchk : chk = cksumGen addr cmd payload) :
    s.Answered (s.rxBytes (wireOf s.escLegacy addr cmd payload chk).tail) ⟨addr, cmd, payload, true⟩ [] := by
  obtain ⟨sc, hw', htail⟩ := hw.rxBytes_frame_tail hB addr cmd payload chk
  have hd := (decodeFrame_wireOf s.escLegacy hlen).trans (if_pos hchk)
  rw [htail, hw'.rxByte_flag_accepts rfl (stuff_ne_nil _ (List.cons_ne_nil _ _)) hd]
  exact s.answered_of_stored (f := ⟨addr, cmd, payload, true⟩) hlen [] Scan.zero

theorem State.Waiting.rxBytes_frame_tail_wrong_first (hchk : chk ≠ cksumGen addr cmd payload) (hr : s.resynced = false) :
    s.rxBytes (wireOf s.escLegacy addr cmd payload chk).tail =
      { s with rxbuf := [flagByte], resynced := true, firstErr := some .checksum, scan := Scan.zero } := by
  obtain ⟨sc, hw', htail⟩ := hw.rxBytes_frame_tail hB addr cmd payload chk
  have hd := (decodeFrame_wireOf s.escLegacy hlen).trans (if_neg hchk)
  rw [htail, hw'.rxByte_flag_absorbs rfl (stuff_ne_nil _ (List.cons_ne_nil _ _)) hd hr]
  rfl

theorem State.Waiting.rxBytes_frame_tail_wrong_second (hchk : chk ≠ cksumGen addr cmd payload) (hr : s.resynced = true) :
    s.FailedWith (s.rxBytes (wireOf s.escLegacy addr cmd payload chk).tail) .checksumMismatch [flagByte] := by
  obtain ⟨sc, hw', htail⟩ := hw.rxBytes_frame_tail hB addr cmd payload chk
  have hd := (decodeFrame_wireOf s.escLegacy hlen).trans (if_neg hchk)
  rw [htail, hw'.rxByte_flag_surfaces rfl (stuff_ne_nil _ (List.cons_ne_nil _ _)) hd hr]
  exact s.failedWith_of_failed .checksumMismatch [flagByte] Scan.zero

end

theorem exec_frame (addr cmd : Byte) (payload : List Byte) (chk : Byte) (s : State) :
    exec (.frame addr cmd payload chk) s = .next (s.rxBytes (wireOf s.escLegacy addr cmd payload chk)) := rfl

/-- A FRAME is its opening delimiter, and then the bytes behind it. -/
theorem State.rxBytes_wireOf (s : State) (x : Bool) (addr cmd : Byte) (payload : List Byte) (chk : Byte) :
    s.rxBytes (wireOf x addr cmd payload chk) =
      (s.rxByte flagByte).rxBytes (wireOf x addr cmd payload chk).tail := rfl

theorem wireOf_tail_ne_nil (x : Bool) (addr cmd : Byte) (payload : List Byte) (chk : Byte) :
    (wireOf x addr cmd payload chk).tail ≠ [] := by simp [wireOf]

theorem State.rxBytes_of_not_rx_of_ne_nil {s : State} {l : List Byte} (hp : s.phase ≠ .rx) (hl : l ≠ []) :
    s.rxBytes l = { s with rxbuf := s.rxbuf ++ l, scan := Scan.zero } := by
  obtain ⟨b, l, rfl⟩ := List.exists_cons_of_ne_nil hl
  exact State.rxBytes_of_not_rx l hp

/-! ### A FRAME behind an unfinished candidate -/

section
variable {s : State} {body : List Byte} (hw : s.Waiting) (hB : s.rxbuf = flagByte :: body) (hne : body ≠ [])
  (x : Bool) (addr cmd : Byte) (payload : List Byte) (chk : Byte)
include hw hB hne

/-- The opening delimiter completes a candidate that decodes, and the rest is buffered (R206, R211; 20_memory.md R72). -/
theorem State.Waiting.rxBytes_frame_behind_accepted {f : Frame}
    (hd : decodeFrame s.escLegacy (flagByte :: (body ++ [flagByte])) = .ok f) :
    s.Answered (s.rxBytes (wireOf x addr cmd payload chk)) f (wireOf x addr cmd payload chk).tail := by
  rw [State.rxBytes_wireOf, hw.rxByte_flag_accepts hB hne hd,
    State.rxBytes_of_not_rx_of_ne_nil (by simp) (wireOf_tail_ne_nil x addr cmd payload chk)]
  exact s.answered_of_stored (decodeFrame_payload_le hd) (wireOf x addr cmd payload chk).tail Scan.zero

/-- The opening delimiter is the second failure and stays, with the rest behind it (R213; 20_memory.md R72). -/
theorem State.Waiting.rxBytes_frame_behind_failed {e : DecodeErr}
    (hd : decodeFrame s.escLegacy (flagByte :: (body ++ [flagByte])) = .error e) (hr : s.resynced = true) :
    s.FailedWith (s.rxBytes (wireOf x addr cmd payload chk)) e.code (wireOf x addr cmd payload chk) := by
  rw [State.rxBytes_wireOf, hw.rxByte_flag_surfaces hB hne hd hr,
    State.rxBytes_of_not_rx_of_ne_nil (by simp) (wireOf_tail_ne_nil x addr cmd payload chk)]
  exact s.failedWith_of_failed e.code (wireOf x addr cmd payload chk) Scan.zero

end

/-- Settles O51: the opening delimiter opens a candidate, or completes the one in progress; then the bytes behind it. -/
theorem receivedFrame : Obligations.ReceivedFrame := by
  intro s addr cmd chk payload hlen right response
  have hright : chk = cksumGen addr cmd payload ↔ right := eq_cksumGen_iff hlen
  refine ⟨fun hw hB => ?boundary, fun body hw hB hne => ⟨fun f hd => ?accepted, fun e hd => ?failed⟩, fun hp => ?notRx⟩
  case boundary =>
    have hopen := hw.rxByte_flag_opens hB
    have hw' := hw.with_rxbuf (l := [flagByte]) rfl Scan.zero
    rw [exec_frame, State.rxBytes_wireOf, hopen]
    refine ⟨fun hr => ⟨_, rfl, ?_⟩, fun hr => ⟨fun hfirst => ?_, fun hsecond => ⟨_, rfl, ?_⟩⟩⟩
    · exact hw'.rxBytes_frame_tail_right hlen rfl (hright.mpr hr)
    · exact congrArg _ (hw'.rxBytes_frame_tail_wrong_first hlen rfl (mt hright.mp hr) hfirst)
    · exact hw'.rxBytes_frame_tail_wrong_second hlen rfl (mt hright.mp hr) hsecond
  case accepted => exact ⟨_, exec_frame .., hw.rxBytes_frame_behind_accepted hB hne _ _ _ _ _ hd⟩
  case failed =>
    have hw' := State.Waiting.with_rxbuf (s := { s with resynced := true, firstErr := some e }) hw
      (l := [flagByte]) rfl Scan.zero
    refine ⟨fun hr => ⟨_, exec_frame .., hw.rxBytes_frame_behind_failed hB hne _ _ _ _ _ hd hr⟩,
      fun hr hchk => ⟨_, exec_frame .., ?_⟩, fun hr hchk => ⟨_, exec_frame .., ?_⟩⟩ <;>
      rw [State.rxBytes_wireOf, hw.rxByte_flag_absorbs hB hne hd hr]
    · exact hw'.rxBytes_frame_tail_right hlen rfl (hright.mpr hchk)
    · exact hw'.rxBytes_frame_tail_wrong_second hlen rfl (mt hright.mp hchk) rfl
  case notRx =>
    exact congrArg _ (State.rxBytes_of_not_rx_of_ne_nil hp (List.cons_ne_nil _ _))

end Sys2Proof.Machine

/-! ## Settling O2, O3 and O1: the decoder and the encoder -/

namespace Sys2Proof

open Config

/-- `bytes` are the encoding on channel `ch` of the well-formed instruction `i`. -/
def Instr.Encodes (i : Instr) (ch : Channel) (bytes : List Byte) : Prop :=
  i.wellFormed = true ∧ channelOf i = some ch ∧ Sys2Proof.encode i = bytes

theorem decodeWire_of_isLiteral {v : Byte} (h : Byte.isLiteral v = true) : decodeWire v = .literal v := by
  simp only [Byte.isLiteral, Bool.and_eq_true, bne_iff_ne] at h
  obtain ⟨⟨⟨hflag, hesc⟩, h11⟩, h13⟩ := h
  simp only [decodeWire, hflag, hesc, h11, h13, if_false]

theorem decodeEscaped_of_isBadEscape {e : Byte} (h : Byte.isBadEscape e = true) : decodeEscaped e = .eInvalid e := by
  simp only [Byte.isBadEscape, Bool.and_eq_true, bne_iff_ne] at h
  obtain ⟨⟨⟨h5E, h5D⟩, h31⟩, h33⟩ := h
  simp only [decodeEscaped, h5E, h5D, h31, h33, if_false]

/-- Settles O2: by the row; the rows with operands are LITERAL, E_INVALID and FRAME. -/
theorem decodeOfEncodeIsTheInstruction : Obligations.DecodeOfEncodeIsTheInstruction := by
  intro i ch hwf hch
  cases i
  case cksumGen | cksumVfy | stuff | unstuff => cases hch
  all_goals obtain rfl := Option.some.inj hch
  case literal v => exact congrArg Except.ok (decodeWire_of_isLiteral hwf)
  case eInvalid e => exact congrArg Except.ok (decodeEscaped_of_isBadEscape hwf)
  case frame addr cmd payload chk => exact Machine.decodeLayout_layoutOf addr cmd chk (of_decide_eq_true hwf)
  all_goals rfl

theorem decodeOp_encodes {v : Byte} {i : Instr} (h : decodeOp v = .ok i) : i.Encodes .ctrl [v] := by
  unfold decodeOp at h
  split_ifs at h with h1 h2 h3
  all_goals
    subst v
    obtain rfl := Except.ok.inj h
    exact ⟨rfl, rfl, rfl⟩

theorem decodeWire_encodes (b : Byte) : (decodeWire b).Encodes .wire [b] := by
  refine ⟨Machine.decodeWire_wellFormed b, ?_⟩
  unfold decodeWire
  split_ifs with hflag hesc h11 h13
  case neg => exact ⟨rfl, rfl⟩
  all_goals
    subst b
    exact ⟨rfl, rfl⟩

theorem decodeEscaped_encodes (b : Byte) : (decodeEscaped b).Encodes .escaped [b] := by
  refine ⟨Machine.decodeEscaped_wellFormed b, ?_⟩
  unfold decodeEscaped
  split_ifs with h5E h5D h31 h33
  case neg => exact ⟨rfl, rfl⟩
  all_goals
    subst b
    exact ⟨rfl, rfl⟩

/-- The LEN byte of a frame is the number of its payload bytes, so a frame has at most 255 of them (30_encoding.md R91,
R93). -/
theorem frame_encodes {addr cmd len chk : Byte} {payload : List Byte} (h : payload.length = len.toNat) :
    (Instr.frame addr cmd payload chk).Encodes .frame
      (flagByte :: addr :: cmd :: len :: (payload ++ [chk, flagByte])) := by
  have hlen : BitVec.ofNat 8 payload.length = len := by rw [h, BitVec.ofNat_toNat, BitVec.setWidth_eq]
  have hle : payload.length ≤ maxPayload := h ▸ Nat.le_of_lt_succ len.isLt
  exact ⟨decide_eq_true hle, rfl, by rw [encode, layoutOf, hlen]⟩

theorem decodeLayout_encodes {bytes : List Byte} {i : Instr} (h : decodeLayout bytes = .ok i) :
    i.Encodes .frame bytes := by
  unfold decodeLayout at h
  split at h
  case h_2 => cases h
  case h_1 start addr cmd len rest =>
    split_ifs at h with hstart hlen
    obtain rfl := not_not.mp hstart
    have hlen := not_not.mp hlen
    split at h
    case h_2 => cases h
    case h_1 chk stop htail =>
      split_ifs at h with hstop
      obtain rfl := Except.ok.inj h
      have hpayload : (rest.take len.toNat).length = len.toNat := by rw [List.length_take]; omega
      rw [← List.take_append_drop len.toNat rest, htail, hstop, List.take_left' hpayload]
      exact frame_encodes hpayload

/-- Settles O3: by the channel. -/
theorem decodedBytesAreTheEncoding : Obligations.DecodedBytesAreTheEncoding := by
  intro ch bytes i h
  unfold decode at h
  split at h
  · exact decodeOp_encodes h
  · exact Except.ok.inj h ▸ decodeWire_encodes _
  · exact Except.ok.inj h ▸ decodeEscaped_encodes _
  · exact decodeLayout_encodes h
  · cases h

/-- Settles O1. -/
theorem decodedWordsAreTheTablesRows : Obligations.DecodedWordsAreTheTablesRows :=
  ⟨rfl, rfl, rfl, rfl, rfl, rfl, rfl, rfl, rfl, rfl, rfl, rfl, rfl, rfl, rfl, rfl⟩

end Sys2Proof

/-! ## Settling O18: the escape set -/

namespace Sys2Proof.Machine

open Config

/-- Settles O18. -/
theorem escapePairsAreTheFour : Obligations.EscapePairsAreTheFour := by
  refine ⟨fun b => ⟨?legacy, ?plain⟩, fun x => ?pairs, rfl, rfl, rfl, rfl, by decide⟩
  case legacy => simp [inEscSet_iff, flagByte, escByte, ctl11Byte, ctl13Byte]
  case plain => simp [inEscSet_iff, flagByte, escByte]
  case pairs => cases x <;> exact ⟨rfl, rfl⟩

end Sys2Proof.Machine

/-! ## Settling O33: ENCODE and then DECODE -/

namespace Sys2Proof.Machine

open Config

theorem State.rawWire_storeWire (s : State) {w : List Byte} (hw : w.length ≤ wireMax) :
    (s.storeWire w).rawWire = some w := by
  have hlen : (BitVec.ofNat 16 w.length).toNat = w.length := by
    rw [BitVec.toNat_ofNat, Nat.mod_eq_of_lt (hw.trans_lt (by decide))]
  rw [State.rawWire, State.storeWire_wire, State.storeWire_wireLen, hlen, Memory.readFrom_ofList]

/-- ENCODE on an idle block with a payload that is written (42_frame_codec.md R165). -/
theorem execEncode_of_written {s : State} {payload : List Byte} (hb : s.busy = false) (hl : s.reqPlen.toNat ≤ 255)
    (hq : s.reqPayload = some payload) :
    execEncode s = .next ((s.startOp.storeWire (wireOf s.escLegacy s.reqAddr s.reqCmd payload
      (cksumGen s.reqAddr s.reqCmd payload))).clearScan.finish .ok) := by
  have hlen : payload.length ≤ 255 := (State.reqPayload_eq_some.mp hq).1 ▸ hl
  simp [execEncode, hb, State.plenTooLarge_of_le hl, hq, encodeFrame_of_le hlen]

/-- DECODE on an idle block where WIRE holds a frame (R177). -/
theorem execDecode_of_ok {s : State} {raw : List Byte} {f : Frame} (hb : s.busy = false) (hr : s.rawWire = some raw)
    (hd : decodeFrame s.escLegacy raw = .ok f) :
    execDecode s = .next ((s.startOp.clearScan.storeFrame f).finish .ok) := by
  simp [execDecode, hb, hr, hd]

/-- Settles O33: WIRE holds the encoded request, and that decodes as the request. -/
theorem hostEncodeThenDecodeReturnsTheRequest : Obligations.HostEncodeThenDecodeReturnsTheRequest := by
  intro s payload hb hl hplen hread
  have hlen : payload.length ≤ 255 := hplen ▸ hl
  have hencode := execEncode_of_written hb hl (State.reqPayload_eq_some.mpr ⟨hplen, hread⟩)
  have hfits := length_wireOf_le s.escLegacy s.reqAddr s.reqCmd (cksumGen s.reqAddr s.reqCmd payload) hlen
  have hdecode := (decodeFrame_wireOf s.escLegacy (addr := s.reqAddr) (cmd := s.reqCmd) hlen).trans (if_pos rfl)
  refine ⟨_, _, hencode, execDecode_of_ok rfl (s.startOp.rawWire_storeWire hfits) hdecode, rfl, rfl, rfl, rfl,
    (ofNat_length_toNat hlen).trans hplen, fun i hi => ?_, rfl, rfl, rfl⟩
  exact (Memory.read_ofList payload i).trans (hread i hi).symm

end Sys2Proof.Machine

/-! ## Settling O43, O44 and O45: a body byte of an unfinished candidate -/

namespace Sys2Proof.Machine

open Config

/-- The row that a body byte selects adds it to the candidate and is one turn of the scan (41_stuffing.md R145). -/
theorem State.Waiting.exec_bodyByte {s : State} {body : List Byte} {b : Byte} (hw : s.Waiting)
    (hB : s.rxbuf = flagByte :: body) (hb : b ≠ flagByte) :
    exec (decodeReceived s.scan.escPend b) s =
      .next { s with rxbuf := s.rxbuf ++ [b], scan := s.scan.readByte s.escLegacy b } := by
  have hread : lineEffect s.escLegacy b s.scan = s.scan.readByte s.escLegacy b := by simp [lineEffect, hb]
  rw [exec_decodeReceived, State.rxByte, State.receive_body b _ hw hB hb, hread]

/-- A byte with no ESC pending that is no delimiter and no ESC stands for itself (30_encoding.md R105 to R107). -/
theorem decodeReceived_plain {i : Instr} {v : Byte}
    (h : (i = .ctl11 ∧ v = 0x11) ∨ (i = .ctl13 ∧ v = 0x13) ∨ (i = .literal v ∧ i.wellFormed = true)) :
    decodeReceived false v = i ∧ v ≠ flagByte ∧ v ≠ escByte := by
  obtain ⟨rfl, rfl⟩ | ⟨rfl, rfl⟩ | ⟨rfl, hwf⟩ := h
  · decide
  · decide
  · refine ⟨decodeWire_of_isLiteral hwf, ?_, ?_⟩ <;>
    · rintro rfl
      exact absurd hwf (by decide)

/-- Settles O43. -/
theorem literalClassesAreInnerBytes : Obligations.LiteralClassesAreInnerBytes := by
  intro s body hw hB hbad hpend i v hi
  obtain ⟨hclass, hflag, hesc⟩ := decodeReceived_plain hi
  have hexec := hw.exec_bodyByte hB hflag
  rw [Scan.readByte_plain hpend hesc, Scan.accept_of_alive hbad, hpend, hclass] at hexec
  simp only [hexec, hbad, hpend]

/-- Settles O44. -/
theorem escSetsEscPend : Obligations.EscSetsEscPend := by
  intro s body hw hB hbad hpend
  have hexec := hw.exec_bodyByte hB (b := escByte) (by decide)
  rw [Scan.readByte_esc hpend, Scan.escape_of_alive hbad, hpend] at hexec
  simp only [hbad]
  exact hexec

theorem xor_stuffXor_eq_iff {e v : Byte} : e ^^^ stuffXor = v ↔ e = v ^^^ stuffXor := by
  constructor
  · rintro rfl; exact (xor_stuffXor_cancel e).symm
  · rintro rfl; exact xor_stuffXor_cancel v

/-- The bytes that stand for one of the escape set behind an ESC (30_encoding.md R101, R108 to R111). -/
theorem inEscSet_xor_stuffXor_iff (x : Bool) (e : Byte) :
    inEscSet x (e ^^^ stuffXor) = true ↔ e = 0x5E ∨ e = 0x5D ∨ (x = true ∧ (e = 0x31 ∨ e = 0x33)) := by
  simp only [inEscSet_iff, xor_stuffXor_eq_iff]
  rfl

theorem inEscSet_of_isBadEscape (x : Bool) {e : Byte} (h : Byte.isBadEscape e = true) :
    inEscSet x (e ^^^ stuffXor) = false := by
  simp only [Byte.isBadEscape, Bool.and_eq_true, bne_iff_ne] at h
  obtain ⟨⟨⟨h5E, h5D⟩, h31⟩, h33⟩ := h
  rw [← Bool.not_eq_true, inEscSet_xor_stuffXor_iff]
  rintro (h | h | ⟨-, h | h⟩)
  exacts [h5E h, h5D h, h31 h, h33 h]

section
variable {s : State} {body : List Byte} {e : Byte} (hw : s.Waiting) (hB : s.rxbuf = flagByte :: body)
  (hbad : s.scan.bad = false) (hpend : s.scan.escPend = true) (he : e ≠ flagByte)
include hw hB hbad hpend he

/-- A byte behind an ESC that stands for `v` (30_encoding.md R108 to R111). -/
theorem State.Waiting.exec_escaped_valid {v : Byte} (hv : e ^^^ stuffXor = v) (hset : inEscSet s.escLegacy v = true) :
    exec (decodeReceived true e) s = .next { s with
      rxbuf := s.rxbuf ++ [e]
      scan := { s.scan with
        idx := s.scan.idx + 1, escPend := false, sum := s.scan.sum + v, inner := s.scan.inner ++ [v] } } := by
  have hexec := hw.exec_bodyByte hB he
  rw [Scan.readByte_pending hpend, hv, Scan.escaped, if_pos hset, Scan.accept_of_alive hbad, hpend] at hexec
  simp only [hexec, hbad]

/-- A byte behind an ESC that stands for nothing (30_encoding.md R110 to R112). -/
theorem State.Waiting.exec_escaped_invalid (hset : inEscSet s.escLegacy (e ^^^ stuffXor) = false) :
    exec (decodeReceived true e) s = .next { s with
      rxbuf := s.rxbuf ++ [e]
      scan := { s.scan with idx := s.scan.idx + 1, escPend := false, bad := true } } := by
  have hexec := hw.exec_bodyByte hB he
  rwa [Scan.readByte_pending hpend, Scan.escaped, if_neg (by simp [hset]), Scan.reject_of_alive hbad, hpend] at hexec

end

/-- Settles O45: the byte behind the ESC stands for one of the escape set, or for nothing. -/
theorem escapedClassesStandForTheirBytes : Obligations.EscapedClassesStandForTheirBytes := by
  intro s body hw hB hbad hpend
  refine ⟨fun i e v hi => ?valid, fun i e hi => ?invalid⟩
  case valid =>
    obtain ⟨hclass, he, hv, hset⟩ : decodeReceived true e = i ∧ e ≠ flagByte ∧ e ^^^ stuffXor = v ∧
        inEscSet s.escLegacy v = true := by
      obtain ⟨rfl, rfl, rfl⟩ | ⟨rfl, rfl, rfl⟩ | ⟨hx, ⟨rfl, rfl, rfl⟩ | ⟨rfl, rfl, rfl⟩⟩ := hi
      · exact ⟨rfl, by decide, rfl, rfl⟩
      · exact ⟨rfl, by decide, rfl, rfl⟩
      · exact ⟨rfl, by decide, rfl, by rw [hx]; rfl⟩
      · exact ⟨rfl, by decide, rfl, by rw [hx]; rfl⟩
    exact hclass ▸ hw.exec_escaped_valid hB hbad hpend he hv hset
  case invalid =>
    obtain ⟨hclass, he, hset⟩ : decodeReceived true e = i ∧ e ≠ flagByte ∧
        inEscSet s.escLegacy (e ^^^ stuffXor) = false := by
      obtain ⟨hx, ⟨rfl, rfl⟩ | ⟨rfl, rfl⟩⟩ | ⟨rfl, hwf, hne⟩ := hi
      · exact ⟨rfl, by decide, by rw [hx]; rfl⟩
      · exact ⟨rfl, by decide, by rw [hx]; rfl⟩
      · exact ⟨decodeEscaped_of_isBadEscape hwf, hne, inEscSet_of_isBadEscape _ hwf⟩
    exact hclass ▸ hw.exec_escaped_invalid hB hbad hpend he hset

end Sys2Proof.Machine

/-! ## Settling O46 and O50: frames that UNSTUFF fails -/

namespace Sys2Proof.Machine

open Config

theorem unstuff_eq_ok_iff {x : Bool} {l u : List Byte} :
    unstuff x l = .ok u ↔ (scanBody x l).bad = false ∧ (scanBody x l).escPend = false ∧ (scanBody x l).inner = u := by
  unfold unstuff Scan.result
  cases (scanBody x l).bad <;> cases (scanBody x l).escPend <;> simp

/-- UNSTUFF of a body whose first part is read to its end (41_stuffing.md R145). -/
theorem unstuff_append_of_ok {x : Bool} {before u : List Byte} (h : unstuff x before = .ok u) (rest : List Byte) :
    unstuff x (before ++ rest) = (unstuff x rest).map (u ++ ·) := by
  obtain ⟨hbad, hpend, rfl⟩ := unstuff_eq_ok_iff.mp h
  rw [unstuff, scanBody_append, scan_result_from hbad hpend]

theorem decodeFrame_of_unstuff_error {x : Bool} {body : List Byte} {e : DecodeErr} (hn : flagByte ∉ body)
    (h : unstuff x body = .error e) : decodeFrame x (flagByte :: (body ++ [flagByte])) = .error e := by
  rw [decodeFrame_delimited x hn, h]

/-- Settles O46. -/
theorem invalidEscapeFailsTheFrame : Obligations.InvalidEscapeFailsTheFrame := by
  intro x before u after e hn hu hset
  have hn' : flagByte ∉ before ++ escByte :: e :: after := by
    simp only [List.mem_append, List.mem_cons, not_or] at hn ⊢
    obtain ⟨hbefore, he, hafter⟩ := hn
    exact ⟨hbefore, by decide, he, hafter⟩
  have hesc : unstuff x (escByte :: e :: after) = .error .unstuffing :=
    (unstuff_esc_cons x e after).trans (if_neg (by rw [stuffXor, hset]; simp))
  refine decodeFrame_of_unstuff_error hn' ?_
  rw [unstuff_append_of_ok hu]
  exact congrArg (Except.map (u ++ ·)) hesc

/-- A candidate that ends in a pending ESC is no frame (41_stuffing.md R146). -/
theorem State.Receiving.pending_candidate_fails {s : State} (h : s.Receiving) (hpend : s.scan.escPend = true) :
    ∃ body, s.rxbuf = flagByte :: body ∧ body ≠ [] ∧
      decodeFrame s.escLegacy (flagByte :: (body ++ [flagByte])) = .error .unstuffing := by
  obtain ⟨hw, hscan⟩ := h
  rw [hscan] at hpend
  obtain hB | ⟨body, hB, hn⟩ := rxSettled_iff.mp hw.2.2.2
  · rw [hB] at hpend; cases hpend
  · rw [hB, List.tail_cons] at hpend
    have hne : body ≠ [] := by rintro rfl; cases hpend
    have hfail : unstuff s.escLegacy body = .error .unstuffing := by simp [unstuff, Scan.result, hpend]
    exact ⟨body, hB, hne, decodeFrame_of_unstuff_error hn hfail⟩

theorem exec_eInvalid_flag {s : State} (hpend : s.scan.escPend = true) :
    exec (.eInvalid flagByte) s = .next (s.rxByte flagByte) := by
  have hclass : decodeReceived s.scan.escPend flagByte = .eInvalid flagByte := by rw [hpend]; rfl
  rw [← hclass, exec_decodeReceived]

/-- Settles O50. -/
theorem delimiterAfterEscFailsTheCandidate : Obligations.DelimiterAfterEscFailsTheCandidate := by
  intro s hinv hp hpend
  have hrecv := hinv.receiving hp
  obtain ⟨body, hB, hne, hd⟩ := hrecv.pending_candidate_fails hpend
  have hexec := exec_eInvalid_flag hpend
  refine ⟨fun hr => ?first, fun hr => ⟨_, hexec, ?second⟩⟩
  case first => exact hexec.trans (congrArg _ (hrecv.1.rxByte_flag_absorbs hB hne hd hr))
  case second =>
    rw [hrecv.1.rxByte_flag_surfaces hB hne hd hr]
    exact s.failedWith_of_failed .unstuffingError [flagByte] Scan.zero

end Sys2Proof.Machine

/-! ## Settling O11 and O12: reserved host encodings -/

namespace Sys2Proof.Machine

open Config

/-- CTRL.OP 0x00 and 0x04 to 0xFF (30_encoding.md R118 a). -/
theorem decodeOp_reserved {op : Byte} (h : op = 0x00 ∨ 0x04 ≤ op) : decodeOp op = .error .reservedOp := by
  have hne : op ≠ 0x01 ∧ op ≠ 0x02 ∧ op ≠ 0x03 := by
    refine ⟨?_, ?_, ?_⟩ <;>
    · rintro rfl
      revert h
      decide
  obtain ⟨h1, h2, h3⟩ := hne
  simp only [decodeOp, h1, h2, h3, if_false]

theorem whileIdle_of_busy {s : State} (hb : s.busy = true) (t : State) : whileIdle s t = .refused .writeWhileBusy :=
  if_pos hb

/-- The three operations while another is in progress (30_encoding.md R118 b). -/
theorem exec_ctrl_of_busy {s : State} {i : Instr} (hb : s.busy = true) (hch : channelOf i = some .ctrl) :
    exec i s = .refused .ctrlWhileBusy := by
  cases i
  case encode | decode | xfer => exact if_pos hb
  all_goals simp [channelOf] at hch

theorem exists_decode_ctrl {op : Byte} (h : op ∈ [(0x01 : Byte), 0x02, 0x03]) :
    ∃ i, Sys2Proof.decode .ctrl [op] = .ok i := by
  simp only [List.mem_cons, List.not_mem_nil, or_false] at h
  obtain rfl | rfl | rfl := h <;> exact ⟨_, rfl⟩

theorem hostWriteReg_of_busy {s : State} {num : Byte} (hb : s.busy = true)
    (hnum : num ∈ [(0x02 : Byte), 0x05, 0x06, 0x07, 0x08, 0x09]) (v : Word32) :
    hostWriteReg num v s = .refused .writeWhileBusy := by
  simp only [List.mem_cons, List.not_mem_nil, or_false] at hnum
  obtain rfl | rfl | rfl | rfl | rfl | rfl := hnum <;> exact if_pos hb

/-- Settles O11: one conjunct for each of R118 (a) and (b), and two for (c). -/
theorem reservedHostEncodingsAreRefused : Obligations.ReservedHostEncodingsAreRefused := by
  refine ⟨fun s v op hop hres => ?reserved, fun s v hb hop => ?ctrl, fun s num v hb hnum => ?reg, fun s i v hb =>
    ⟨fun hi => ⟨(hostWriteBuf_txpay hi v s).trans (whileIdle_of_busy hb _),
      (hostWriteBuf_rxpay hi v s).trans (whileIdle_of_busy hb _)⟩,
    fun hi => (hostWriteBuf_wire hi v s).trans (whileIdle_of_busy hb _)⟩⟩
  case reserved =>
    subst hop
    simp only [handle, if_true, hostWriteCtrl, Sys2Proof.decode, decodeOp_reserved hres]
  case ctrl =>
    obtain ⟨i, hi⟩ := exists_decode_ctrl hop
    obtain ⟨-, hch, -⟩ := decodedBytesAreTheEncoding _ _ _ hi
    rw [handle_writeCtrl hi, exec_ctrl_of_busy hb hch]
  case reg =>
    have hne : num ≠ 0x00 := ne_of_mem_of_not_mem hnum (by decide)
    rw [handle, if_neg hne, hostWriteReg_of_busy hb hnum]

theorem writeWireLen_of_lt {s : State} {n : Word16} (hb : s.busy = false) (hn : wireMax < n.toNat) :
    writeWireLen n s = .refused .wireLenTooLarge := by
  rw [writeWireLen, if_neg (by simp [hb]), if_pos hn]

/-- Settles O12. -/
theorem wireLenAboveMaximumIsRefused : Obligations.WireLenAboveMaximumIsRefused := by
  intro s n hb hn
  have hcut : (n.setWidth 32).setWidth 16 = n := by simp
  exact (congrArg (writeWireLen · s) hcut).trans (writeWireLen_of_lt hb hn)

end Sys2Proof.Machine

/-! ## Settling O15, O16 and O17: the checksum -/

namespace Sys2Proof.Machine

theorem byteSum_eq_sum (l : List Byte) : byteSum l = (l.map BitVec.toNat).sum := by
  induction l with
  | nil => rfl
  | cons b l ih => rw [byteSum_cons, ih, List.map_cons, List.sum_cons]

/-- The sum does not depend on the order of the bytes (40_checksum.md R131, law 3). -/
theorem byteSum_perm {l l' : List Byte} (h : l.Perm l') : byteSum l = byteSum l' := by
  rw [byteSum_eq_sum, byteSum_eq_sum, (h.map BitVec.toNat).sum_eq]

theorem cks_eq_not (l : List Byte) : cks l = ~~~(BitVec.ofNat 8 (byteSum l)) :=
  BitVec.eq_of_toNat_eq (by rw [cks_toNat, BitVec.toNat_not, BitVec.toNat_ofNat])

theorem cks_eq_xor (l : List Byte) : cks l = BitVec.ofNat 8 (byteSum l) ^^^ 0xFF := by
  rw [cks_eq_not]
  exact BitVec.xor_allOnes.symm

/-- Inverting the bits of a byte is taking it from 0xFF: the subtraction borrows nothing. -/
theorem cks_eq_sub (l : List Byte) : cks l = 0xFF - BitVec.ofNat 8 (byteSum l) := by
  rw [cks_eq_not, ← BitVec.allOnes_sub_eq_not]
  rfl

theorem ofNat_byteSum_cons (b : Byte) (l : List Byte) :
    BitVec.ofNat 8 (byteSum (b :: l)) = b + BitVec.ofNat 8 (byteSum l) := by
  rw [byteSum_cons, BitVec.ofNat_add, BitVec.ofNat_toNat, BitVec.setWidth_eq]

/-- The running sum of 8 bits is the whole sum modulo 256, from any start (40_checksum.md R131, law 6). -/
theorem foldl_add_eq (l : List Byte) (acc : Byte) :
    l.foldl (· + ·) acc = acc + BitVec.ofNat 8 (byteSum l) := by
  induction l generalizing acc with
  | nil => simp
  | cons b l ih => rw [List.foldl_cons, ih, ofNat_byteSum_cons, BitVec.add_assoc]

/-- Law 5 of R131 (40_checksum.md): a byte changed by `d` changes the checksum by `-d`. -/
theorem cks_change (l r : List Byte) (b d : Byte) :
    cks (l ++ (b + d) :: r) = cks (l ++ b :: r) - d := by
  simp only [cks_eq_sub, byteSum_append, BitVec.ofNat_add, ofNat_byteSum_cons]
  ring

theorem cks_change_ne (l r : List Byte) (b : Byte) {d : Byte} (hd : d ≠ 0) :
    cks (l ++ (b + d) :: r) ≠ cks (l ++ b :: r) := by
  rw [cks_change, ne_eq, sub_eq_self]
  exact hd

/-- Settles O15: R130's equal forms, and R131's laws 1, 3, 4, 5 and 6 in this order. -/
theorem checksumLaws : Obligations.ChecksumLaws := by
  refine ⟨fun s => ⟨cks_toNat s, cks_eq_not s, cks_eq_xor s⟩, rfl, fun s t hperm => ?order,
    fun s => (cks_eq_iff s _).mp rfl, fun l r b _ => ⟨cks_change l r b _, cks_change_ne l r b⟩, fun s => ?running⟩
  case order => rw [cks, cks, byteSum_perm hperm]
  case running => rw [cks_eq_sub, foldl_add_eq, zero_add]

/-- What CKSUM_GEN sums; the length byte holds the whole length (40_checksum.md R132). -/
theorem byteSum_summed (addr cmd : Byte) {payload : List Byte} (hlen : payload.length ≤ 255) :
    byteSum (summed addr cmd payload) = addr.toNat + cmd.toNat + payload.length + byteSum payload := by
  rw [summed, byteSum_cons, byteSum_cons, byteSum_cons, ofNat_length_toNat hlen, ← Nat.add_assoc, ← Nat.add_assoc]

/-- Settles O16: the two bytes are the checksum and the sum of what R132 sums. -/
theorem cksumGenHandsBackTheChecksum : Obligations.CksumGenHandsBackTheChecksum := by
  intro addr cmd payload s hlen
  have hsum := byteSum_summed addr cmd hlen
  refine ⟨cksumGen addr cmd payload, BitVec.ofNat 8 (byteSum (summed addr cmd payload)), ?_, ?_, rfl⟩
  · rw [cksumGen, cks_toNat, hsum]
  · rw [BitVec.toNat_ofNat, hsum]

theorem exec_cksumVfy (u : List Byte) (s : State) : exec (.cksumVfy u) s = execCksumVfy u s := rfl

/-- Settles O17: by law 4 of R131 the last byte is the checksum of the others exactly where all sum to 0xFF. -/
theorem cksumVfyPassesExactlyOnARightChecksum : Obligations.CksumVfyPassesExactlyOnARightChecksum := by
  intro before chk s _
  have hvfy : cksumVfy (before ++ [chk]) = decide ((byteSum before + chk.toNat) % 256 = 255) := by
    rw [cksumVfy_concat, decide_eq_decide]
    exact cks_eq_iff before chk
  simp only [exec_cksumVfy, execCksumVfy, hvfy, decide_eq_true_eq]

end Sys2Proof.Machine

/-! ## Settling O19 and O20: what STUFF hands back -/

namespace Sys2Proof.Machine

open Config

theorem exec_stuff (inner : List Byte) (s : State) : exec (.stuff inner) s = execStuff inner s := rfl

/-- Settles O19: STUFF is one byte's stuffing at each byte. -/
theorem stuffHandsBackTheStuffedBytes : Obligations.StuffHandsBackTheStuffedBytes := by
  intro inner s
  rw [exec_stuff, execStuff, stuff_eq_flatMap]
  congr 4
  funext b
  exact if_congr (inEscSet_iff s.escLegacy b) rfl rfl

theorem escByte_mem_escSet (x : Bool) : inEscSet x escByte = true :=
  (inEscSet_iff x escByte).mpr (.inr (.inl rfl))

/-- The second byte of an escape pair is outside the escape set (30_encoding.md R102). -/
theorem inEscSet_xor_stuffXor_of_mem {x : Bool} {b : Byte} (h : inEscSet x b = true) :
    inEscSet x (b ^^^ stuffXor) = false := by
  obtain rfl | rfl | ⟨rfl, rfl | rfl⟩ := (inEscSet_iff x b).mp h
  · cases x <;> rfl
  · cases x <;> rfl
  · rfl
  · rfl

/-- Of the escape set, stuffed bytes hold ESC only (41_stuffing.md R142). -/
theorem eq_escByte_of_mem_stuff {x : Bool} {l : List Byte} {b : Byte} (hb : b ∈ stuff x l)
    (hset : inEscSet x b = true) : b = escByte := by
  rw [stuff_eq_flatMap, List.mem_flatMap] at hb
  obtain ⟨a, -, hb⟩ := hb
  cases ha : inEscSet x a with
  | true =>
    rw [stuff1_of_mem ha, List.mem_pair] at hb
    obtain hb | rfl := hb
    · exact hb
    · rw [inEscSet_xor_stuffXor_of_mem ha] at hset
      cases hset
  | false =>
    rw [stuff1_of_not_mem ha, List.mem_singleton] at hb
    rw [hb, ha] at hset
    cases hset

/-- A scan that has failed before a body's last part has failed at its end. -/
theorem scanBody_alive_of_append {x : Bool} {l r : List Byte} (h : (scanBody x (l ++ r)).bad = false) :
    (scanBody x l).bad = false := by
  rw [scanBody_append] at h
  by_contra hbad
  rw [Bool.not_eq_false] at hbad
  rw [scan_foldl_bad hbad, hbad] at h
  cases h

/-- In bytes that UNSTUFF reads to their end, no ESC stands behind an ESC that opens a pair: every ESC opens one
(41_stuffing.md R145, R146). -/
theorem esc_opens_pair {x : Bool} {l r u : List Byte} (h : unstuff x (l ++ escByte :: r) = .ok u) :
    ∃ e r', r = e :: r' ∧ inEscSet x (e ^^^ stuffXor) = true := by
  obtain ⟨halive, -, -⟩ := unstuff_eq_ok_iff.mp h
  have hl : (scanBody x l).bad = false := scanBody_alive_of_append halive
  cases hp : (scanBody x l).escPend with
  | true =>
    have hesc : (scanBody x (l ++ [escByte])).bad = true := by
      rw [scanBody_concat, Scan.readByte_pending hp, Scan.escaped,
        inEscSet_xor_stuffXor_of_mem (escByte_mem_escSet x), if_neg Bool.false_ne_true, Scan.reject_of_alive hl]
    rw [List.append_cons] at halive
    rw [scanBody_alive_of_append halive] at hesc
    cases hesc
  | false =>
    rw [unstuff_append_of_ok (unstuff_eq_ok_iff.mpr ⟨hl, hp, rfl⟩)] at h
    cases r with
    | nil => rw [unstuff_esc_alone] at h; cases h
    | cons e r' =>
      refine ⟨e, r', rfl, ?_⟩
      by_contra hset
      rw [unstuff_esc_cons, if_neg hset] at h
      cases h

/-- Settles O20: UNSTUFF reads stuffed bytes to their end, so every ESC among them opens a pair. -/
theorem stuffedBytesHoldOnlyEscapePairs : Obligations.StuffedBytesHoldOnlyEscapePairs := by
  intro x inner
  refine ⟨flagByte_not_mem_stuff x inner, fun l r hr => ?pair, fun hx => ?legacy⟩
  case pair =>
    obtain ⟨e, r', rfl, hset⟩ := esc_opens_pair (l := l) (r := r) (hr ▸ unstuff_stuff x inner)
    exact ⟨e, r', rfl, (inEscSet_xor_stuffXor_iff x e).mp hset⟩
  case legacy =>
    subst hx
    exact ⟨fun h => absurd (eq_escByte_of_mem_stuff h rfl) (by decide),
      fun h => absurd (eq_escByte_of_mem_stuff h rfl) (by decide)⟩

end Sys2Proof.Machine

/-! ## Settling O21, O22 and O23: what UNSTUFF hands back -/

namespace Sys2Proof.Machine

open Config

/-- What one turn of the loop of UNSTUFF does where it does not fail: an ESC is left pending, or one inner byte is
read (41_stuffing.md R145). -/
theorem Scan.readByte_alive {sc : Scan} {x : Bool} {b : Byte} (hbad : sc.bad = false)
    (h : (sc.readByte x b).bad = false) :
    (sc.escPend = false ∧ sc.readByte x b = ⟨sc.idx + 1, true, sc.sum, sc.inner, false⟩) ∨
    ∃ v, sc.readByte x b = ⟨sc.idx + 1, false, sc.sum + v, sc.inner ++ [v], false⟩ := by
  cases hp : sc.escPend with
  | true =>
    rw [readByte_pending hp, escaped] at h ⊢
    split at h
    next hset =>
      rw [if_pos hset]
      exact .inr ⟨_, accept_of_alive hbad⟩
    next =>
      rw [reject_of_alive hbad] at h
      cases h
  | false =>
    by_cases hesc : b = escByte
    · subst hesc
      rw [readByte_esc hp]
      exact .inl ⟨rfl, escape_of_alive hbad⟩
    · rw [readByte_plain hp hesc]
      exact .inr ⟨b, accept_of_alive hbad⟩

/-- IDX counts the bytes read, and each inner byte is read from one or two of them. -/
theorem scanBody_alive {x : Bool} {body : List Byte} (h : (scanBody x body).bad = false) :
    (scanBody x body).idx = BitVec.ofNat 16 body.length ∧
    (scanBody x body).inner.length + (scanBody x body).escPend.toNat ≤ body.length ∧
    body.length ≤ 2 * (scanBody x body).inner.length + (scanBody x body).escPend.toNat := by
  induction body using List.reverseRecOn with
  | nil => exact ⟨rfl, Nat.le_refl 0, Nat.le_refl 0⟩
  | append_singleton body b ih =>
    have hbad := scanBody_alive_of_append h
    obtain ⟨hidx, hle, hge⟩ := ih hbad
    rw [scanBody_concat] at h ⊢
    obtain ⟨hp, hread⟩ | ⟨v, hread⟩ := Scan.readByte_alive hbad h
    · rw [hp] at hle hge
      rw [hread, List.length_append, List.length_singleton, BitVec.ofNat_add, ← hidx]
      refine ⟨rfl, ?_, ?_⟩ <;> simp only [Bool.toNat_true, Bool.toNat_false] at hle hge ⊢ <;> omega
    · have hp := (scanBody x body).escPend.toNat_le
      rw [hread, List.length_append, List.length_singleton, BitVec.ofNat_add, ← hidx]
      refine ⟨rfl, ?_, ?_⟩ <;>
        simp only [Bool.toNat_false, List.length_append, List.length_singleton] <;> omega

/-- Settles O21: byte class by byte class, and the bounds from the scan at its end. -/
theorem unstuffReadsByteClasses : Obligations.UnstuffReadsByteClasses := by
  intro x
  refine ⟨rfl, unstuff_esc_cons x, fun b rest hb => unstuff_cons_of_ne_esc x hb rest, fun body u hu => ?bounds⟩
  case bounds =>
    obtain ⟨hbad, hpend, rfl⟩ := unstuff_eq_ok_iff.mp hu
    obtain ⟨-, hle, hge⟩ := scanBody_alive hbad
    rw [hpend] at hle hge
    exact ⟨hle, hge⟩

/-- Settles O22: the scan is taken up where no escape is pending, and the rest is an ESC alone. -/
theorem danglingEscapeFails : Obligations.DanglingEscapeFails := by
  intro x body u hu
  exact (unstuff_append_of_ok hu [escByte]).trans (congrArg (Except.map (u ++ ·)) (unstuff_esc_alone x))

theorem exec_unstuff (body : List Byte) (s : State) : exec (.unstuff body) s = execUnstuff body s := rfl

/-- Settles O23: a scan that reads the whole body has counted its bytes. -/
theorem unstuffHandsBackTheInnerBytes : Obligations.UnstuffHandsBackTheInnerBytes := by
  intro body s _
  refine ⟨fun u hu => ?read, fun e he => ?failed⟩
  case read =>
    obtain ⟨hbad, hpend, -⟩ := unstuff_eq_ok_iff.mp hu
    obtain ⟨hidx, -, -⟩ := scanBody_alive hbad
    exact ⟨_, exec_unstuff body s, by rw [hu]; rfl, hidx, hpend, rfl⟩
  case failed => exact ⟨_, exec_unstuff body s, by rw [he, unstuff_eq_error he]; rfl, rfl⟩

end Sys2Proof.Machine

/-! ## Settling O24: UNSTUFF behind STUFF, within a configuration and across the two -/

namespace Sys2Proof.Machine

open Config

/-- Bytes stuffed at `x` and read at `y` come back, or fail where one of them is escaped at `x` and not at `y`
(41_stuffing.md R147). -/
theorem unstuff_stuff_eq (x y : Bool) (l : List Byte) :
    unstuff y (stuff x l) =
      if l.any fun v => inEscSet x v && !inEscSet y v then .error .unstuffing else .ok l := by
  induction l with
  | nil => rfl
  | cons v l ih =>
    rw [stuff_cons, unstuff_stuff1_append, ih, List.any_cons]
    cases inEscSet x v && !inEscSet y v with
    | true => rfl
    | false =>
      rw [if_neg Bool.false_ne_true, Bool.false_or]
      split <;> rfl

/-- ESC_LEGACY = 1 escapes 0x11 and 0x13 beyond what is escaped at 0 (30_encoding.md R100). -/
theorem escaped_at_true_only_iff (v : Byte) :
    (inEscSet true v && !inEscSet false v) = true ↔ v = ctl11Byte ∨ v = ctl13Byte := by
  rw [Bool.and_eq_true, Bool.not_eq_true']
  constructor
  · rintro ⟨htrue, hfalse⟩
    rw [← Bool.not_eq_true] at hfalse
    simp only [inEscSet_iff] at htrue hfalse
    tauto
  · rintro (rfl | rfl) <;> exact ⟨rfl, rfl⟩

theorem inEscSet_true_of_false {v : Byte} (h : inEscSet false v = true) : inEscSet true v = true := by
  simp only [inEscSet_iff] at h ⊢
  tauto

/-- Settles O24: nothing is escaped at 0 only, and at 1 only 0x11 and 0x13. -/
theorem unstuffUndoesStuff : Obligations.UnstuffUndoesStuff := by
  refine ⟨unstuff_stuff, fun s => ?up, fun s => ?down, rfl, rfl⟩
  case up =>
    rw [unstuff_stuff_eq, if_neg]
    rw [List.any_eq_true]
    rintro ⟨v, -, hv⟩
    rw [Bool.and_eq_true, Bool.not_eq_true'] at hv
    obtain ⟨hfalse, htrue⟩ := hv
    rw [inEscSet_true_of_false hfalse] at htrue
    cases htrue
  case down =>
    rw [unstuff_stuff_eq]
    refine if_congr ?_ rfl rfl
    simp only [List.any_eq_true, escaped_at_true_only_iff, and_or_left, exists_or, exists_eq_right]
    rfl

end Sys2Proof.Machine

/-! ## Settling O31: the round trip of the codec -/

namespace Sys2Proof.Machine

open Config

theorem eq_nil_of_unstuff_eq_nil {x : Bool} {body : List Byte} (h : unstuff x body = .ok []) : body = [] := by
  obtain ⟨-, -, -, hbounds⟩ := unstuffReadsByteClasses x
  exact List.eq_nil_of_length_eq_zero (Nat.le_zero.mp (hbounds body [] h).2)

/-- What UNSTUFF reads its first byte from: the byte itself, or the escape pair of a byte of the escape set
(41_stuffing.md R145). -/
theorem unstuff_eq_ok_cons {x : Bool} {body u : List Byte} {v : Byte} (h : unstuff x body = .ok (v :: u)) :
    ∃ rest, unstuff x rest = .ok u ∧
      ((v ≠ escByte ∧ body = v :: rest) ∨ (inEscSet x v = true ∧ body = escByte :: (v ^^^ stuffXor) :: rest)) := by
  rcases body with _ | ⟨b, rest⟩
  · exact absurd (Except.ok.inj h) nofun
  by_cases hb : b = escByte
  · subst hb
    rcases rest with _ | ⟨e, rest⟩
    · rw [unstuff_esc_alone] at h
      cases h
    rw [unstuff_esc_cons] at h
    split_ifs at h with hset
    obtain ⟨u', hrest, hcons⟩ := except_map_eq_ok h
    obtain ⟨rfl, rfl⟩ := List.cons.inj hcons
    exact ⟨rest, hrest, .inr ⟨hset, by rw [xor_stuffXor_cancel]⟩⟩
  · rw [unstuff_cons_of_ne_esc x hb] at h
    obtain ⟨u', hrest, hcons⟩ := except_map_eq_ok h
    obtain ⟨rfl, rfl⟩ := List.cons.inj hcons
    exact ⟨rest, hrest, .inl ⟨hb, rfl⟩⟩

/-- STUFF undoes UNSTUFF on a body that holds, of the escape set, ESC only. -/
theorem stuff_of_unstuff_eq_ok {x : Bool} {body u : List Byte} (h : unstuff x body = .ok u)
    (hbody : ∀ b ∈ body, inEscSet x b = true → b = escByte) : stuff x u = body := by
  induction u generalizing body with
  | nil => exact (eq_nil_of_unstuff_eq_nil h).symm
  | cons v u ih =>
    obtain ⟨rest, hrest, ⟨hv, rfl⟩ | ⟨hset, rfl⟩⟩ := unstuff_eq_ok_cons h <;> simp only [List.forall_mem_cons] at hbody
    · obtain ⟨hfirst, hbody⟩ := hbody
      rw [stuff_cons, stuff1_of_not_mem (Bool.eq_false_iff.mpr (mt hfirst hv)), ih hrest hbody, List.singleton_append]
    · obtain ⟨-, -, hbody⟩ := hbody
      rw [stuff_cons, stuff1_of_mem hset, ih hrest hbody]
      rfl

/-- What parses is the inner bytes of the frame, with the checksum that encode gives it. -/
theorem eq_innerBytes_of_parseInner {u : List Byte} {f : Frame} (h : parseInner u = .ok f) :
    f.payload.length ≤ 255 ∧ u = innerBytes f.addr f.cmd f.payload (cksumGen f.addr f.cmd f.payload) := by
  obtain ⟨len, hlen, -, hu⟩ := parseInner_eq_ok h
  have hbyte : BitVec.ofNat 8 f.payload.length = len := by rw [← hlen, BitVec.ofNat_toNat, BitVec.setWidth_eq]
  refine ⟨hlen ▸ Nat.le_of_lt_succ len.isLt, ?_⟩
  rw [innerBytes, cksumGen, summed, hbyte]
  exact hu

/-- The body of what decodes is read back as the inner bytes of the frame. -/
theorem decodeFrame_eq_ok_innerBytes {x : Bool} {raw : List Byte} {f : Frame} (h : decodeFrame x raw = .ok f) :
    ∃ body, raw = flagByte :: (body ++ [flagByte]) ∧ flagByte ∉ body ∧
      unstuff x body = .ok (innerBytes f.addr f.cmd f.payload (cksumGen f.addr f.cmd f.payload)) := by
  obtain ⟨body, u, hraw, hn, hu, hparse⟩ := decodeFrame_eq_ok h
  obtain ⟨-, rfl⟩ := eq_innerBytes_of_parseInner hparse
  exact ⟨body, hraw, hn, hu⟩

theorem parseInner_innerBytes (addr cmd : Byte) {payload : List Byte} (hlen : payload.length ≤ 255) :
    parseInner (innerBytes addr cmd payload (cksumGen addr cmd payload)) = .ok ⟨addr, cmd, payload, true⟩ := by
  have hd := (decodeFrame_wireOf true (addr := addr) (cmd := cmd) hlen).trans (if_pos rfl)
  rwa [wireOf, decodeFrame_delimited true (flagByte_not_mem_stuff true _), unstuff_stuff] at hd

/-- A frame encoded at `x` decodes at `y` where UNSTUFF at `y` undoes STUFF at `x` on its inner bytes. -/
theorem decodeFrame_wireOf_of_unstuff {x y : Bool} {addr cmd : Byte} {payload : List Byte} (hlen : payload.length ≤ 255)
    (h : unstuff y (stuff x (innerBytes addr cmd payload (cksumGen addr cmd payload))) =
      .ok (innerBytes addr cmd payload (cksumGen addr cmd payload))) :
    decodeFrame y (wireOf x addr cmd payload (cksumGen addr cmd payload)) = .ok ⟨addr, cmd, payload, true⟩ := by
  rw [wireOf, decodeFrame_delimited y (flagByte_not_mem_stuff x _), h]
  exact parseInner_innerBytes addr cmd hlen

/-- R181 from ESC_LEGACY = 1 to 0. -/
theorem decodeFrame_false_wireOf_true (addr cmd : Byte) {payload : List Byte} (hlen : payload.length ≤ 255) :
    decodeFrame false (wireOf true addr cmd payload (cksumGen addr cmd payload)) = .error .unstuffing ↔
      (0x11 : Byte) ∈ innerBytes addr cmd payload (cksumGen addr cmd payload) ∨
      (0x13 : Byte) ∈ innerBytes addr cmd payload (cksumGen addr cmd payload) := by
  obtain ⟨-, -, hdown, -⟩ := unstuffUndoesStuff
  have hread := hdown (innerBytes addr cmd payload (cksumGen addr cmd payload))
  split_ifs at hread with hctl
  · exact iff_of_true (decodeFrame_of_unstuff_error (flagByte_not_mem_stuff true _) hread) hctl
  · exact iff_of_false (by rw [decodeFrame_wireOf_of_unstuff hlen hread]; exact nofun) hctl

/-- R181, encode of decode: where no unescaped 0x11 or 0x13 stands at ESC_LEGACY = 1, the body of what decodes holds of
the escape set ESC only. -/
theorem encodeFrame_of_decodeFrame {x : Bool} {raw : List Byte} {f : Frame} (h : decodeFrame x raw = .ok f)
    (hctl : x = true → ctl11Byte ∉ raw ∧ ctl13Byte ∉ raw) : encodeFrame x f.addr f.cmd f.payload = .ok raw := by
  obtain ⟨body, rfl, hn, hu⟩ := decodeFrame_eq_ok_innerBytes h
  have hraw : ∀ b ∈ body, b ∈ flagByte :: (body ++ [flagByte]) := fun b hb =>
    List.mem_cons_of_mem _ (List.mem_append_left _ hb)
  have hbody : ∀ b ∈ body, inEscSet x b = true → b = escByte := by
    intro b hb hset
    obtain rfl | hesc | ⟨hx, hlegacy⟩ := (inEscSet_iff x b).mp hset
    · exact absurd hb hn
    · exact hesc
    · obtain ⟨h11, h13⟩ := hctl hx
      obtain rfl | rfl := hlegacy
      · exact absurd (hraw _ hb) h11
      · exact absurd (hraw _ hb) h13
  rw [encodeFrame_of_le (decodeFrame_payload_le h), wireOf, stuff_of_unstuff_eq_ok hu hbody]

/-- Settles O31: UNSTUFF undoes STUFF for the first three parts, STUFF undoes UNSTUFF for the last. -/
theorem codecRoundTrip : Obligations.CodecRoundTrip := by
  obtain ⟨hsame, hup, -⟩ := unstuffUndoesStuff
  refine ⟨fun x addr cmd payload w hw => ?same, fun addr cmd payload w hw => ?up, fun addr cmd payload w hw => ?down,
    fun x raw f hd hctl => encodeFrame_of_decodeFrame hd hctl⟩ <;>
    obtain ⟨hlen, rfl⟩ := encodeFrame_eq_ok.mp hw
  case same => exact decodeFrame_wireOf_of_unstuff hlen (hsame x _)
  case up => exact decodeFrame_wireOf_of_unstuff hlen (hup _)
  case down => exact decodeFrame_false_wireOf_true addr cmd hlen

end Sys2Proof.Machine

/-! ## Settling O25, O26 and O29: encode as a function, and how long a frame is -/

namespace Sys2Proof.Machine

open Config

theorem encodeFrame_of_lt {x : Bool} {addr cmd : Byte} {payload : List Byte} (h : 255 < payload.length) :
    encodeFrame x addr cmd payload = .error .payloadTooLarge := if_pos h

/-- Settles O25: the checksum byte is the one of R132, and the rest is the layout of R91 and R92. -/
theorem encodeFunction : Obligations.EncodeFunction := by
  intro x addr cmd payload
  refine ⟨encodeFrame_of_lt, fun hlen => ⟨cksumGen addr cmd payload, (eq_cksumGen_iff hlen).mp rfl, ?_⟩⟩
  exact encodeFrame_of_le hlen

theorem length_stuff (x : Bool) (l : List Byte) : (stuff x l).length = l.length + l.countP (inEscSet x) := by
  induction l with
  | nil => rfl
  | cons b l ih =>
    rw [stuff_cons, List.length_append, ih, List.length_cons]
    cases hb : inEscSet x b with
    | true =>
      rw [stuff1_of_mem hb, List.countP_cons_of_pos hb]
      simp only [List.length_cons, List.length_nil]
      omega
    | false =>
      rw [stuff1_of_not_mem hb, List.countP_cons_of_neg (by simp [hb]), List.length_singleton]
      omega

theorem length_wireOf (x : Bool) (addr cmd : Byte) (payload : List Byte) (chk : Byte) :
    (wireOf x addr cmd payload chk).length =
      6 + payload.length + (innerBytes addr cmd payload chk).countP (inEscSet x) := by
  have hinner : (innerBytes addr cmd payload chk).length = payload.length + 4 := by simp [innerBytes, summed]
  rw [wireOf, List.length_cons, List.length_append, length_stuff, hinner, List.length_singleton]
  omega

/-- Settles O26. -/
theorem encodedFrameShape : Obligations.EncodedFrameShape := by
  intro x addr cmd payload w hw
  obtain ⟨hlen, rfl⟩ := encodeFrame_eq_ok.mp hw
  have hlength := length_wireOf x addr cmd payload (cksumGen addr cmd payload)
  refine ⟨⟨_, rfl, flagByte_not_mem_stuff x _⟩, hlength, ?_, length_wireOf_le x addr cmd _ hlen⟩
  rw [hlength]
  omega

theorem one_le_length_stuff1 (x : Bool) (b : Byte) : 1 ≤ (stuff1 x b).length := by
  unfold stuff1
  split_ifs <;> simp

/-- Only a byte of the escape set is read from two wire bytes, so no body is longer than what STUFF makes of the bytes
read from it (30_encoding.md R102). -/
theorem length_le_length_stuff {x : Bool} {body u : List Byte} (h : unstuff x body = .ok u) :
    body.length ≤ (stuff x u).length := by
  induction u generalizing body with
  | nil => rw [eq_nil_of_unstuff_eq_nil h, stuff_nil]
  | cons v u ih =>
    obtain ⟨rest, hrest, ⟨-, rfl⟩ | ⟨hset, rfl⟩⟩ := unstuff_eq_ok_cons h <;> have hle := ih hrest <;>
      rw [stuff_cons, List.length_append, List.length_cons]
    · have hpos := one_le_length_stuff1 x v
      omega
    · rw [stuff1_of_mem hset, List.length_cons, List.length_cons, List.length_cons, List.length_nil]
      omega

/-- No frame that decodes is longer than its canonical encoding. -/
theorem decodeFrame_length_le {x : Bool} {raw : List Byte} {f : Frame} (h : decodeFrame x raw = .ok f) :
    raw.length ≤ (wireOf x f.addr f.cmd f.payload (cksumGen f.addr f.cmd f.payload)).length := by
  obtain ⟨body, rfl, -, hu⟩ := decodeFrame_eq_ok_innerBytes h
  have hbody := length_le_length_stuff hu
  simp only [wireOf, List.length_cons, List.length_append, List.length_nil]
  omega

theorem byteSum_replicate (n : Nat) (b : Byte) : byteSum (List.replicate n b) = n * b.toNat := by
  rw [byteSum_eq_sum, List.map_replicate, List.sum_replicate, smul_eq_mul]

/-- 255 bytes of the escape set whose frame with address and command 0x7E has the checksum 0x7E too. -/
def longestPayload : List Byte := List.replicate 252 escByte ++ List.replicate 3 flagByte

theorem longestPayload_length : longestPayload.length = 255 := by
  rw [longestPayload, List.length_append, List.length_replicate, List.length_replicate]

theorem cksumGen_longestPayload : cksumGen flagByte flagByte longestPayload = flagByte := by
  refine ((eq_cksumGen_iff longestPayload_length.le).mpr ?_).symm
  rw [longestPayload_length, longestPayload, byteSum_append, byteSum_replicate, byteSum_replicate]
  rfl

theorem countP_longestPayload (x : Bool) : longestPayload.countP (inEscSet x) = 255 := by
  have hflag : inEscSet x flagByte = true := rfl
  rw [longestPayload, List.countP_append, List.countP_replicate, List.countP_replicate, if_pos (escByte_mem_escSet x),
    if_pos hflag]

/-- Every inner byte but LEN is escaped. -/
theorem longest_wireOf_length (x : Bool) :
    (wireOf x flagByte flagByte longestPayload flagByte).length = 519 := by
  have hflag : inEscSet x flagByte = true := rfl
  have hlen : inEscSet x (BitVec.ofNat 8 255) = false := by cases x <;> rfl
  rw [length_wireOf, innerBytes, summed, longestPayload_length, List.countP_append, List.countP_cons, List.countP_cons,
    List.countP_cons, countP_longestPayload, List.countP_singleton, hflag, hlen]
  rfl

/-- Settles O29. -/
theorem longestAcceptedFrame : Obligations.LongestAcceptedFrame := by
  intro x
  refine ⟨fun raw f hd => ?_, _, ⟨flagByte, flagByte, longestPayload, true⟩, longest_wireOf_length x, ?_⟩
  · exact (decodeFrame_length_le hd).trans (length_wireOf_le x _ _ _ (decodeFrame_payload_le hd))
  · exact (decodeFrame_wireOf x longestPayload_length.le).trans (if_pos cksumGen_longestPayload.symm)

end Sys2Proof.Machine

/-! ## Settling O28: decode as a function -/

namespace Sys2Proof.Machine

open Config

/-- R171: a sequence that does not begin and end with a delimiter of its own. -/
theorem decodeFrame_of_not_delimited (x : Bool) {raw : List Byte}
    (h : ∀ body, raw ≠ flagByte :: (body ++ [flagByte])) : decodeFrame x raw = .error .framing := by
  rcases raw with _ | ⟨first, rest⟩
  · rfl
  rcases List.eq_nil_or_concat' rest with rfl | ⟨body, last, rfl⟩
  · simp [decodeFrame]
  by_cases hfirst : first = flagByte
  · exact decodeFrame_of_bad_closing x (fun hlast => h body (by rw [hfirst, hlast])) first body
  · exact decodeFrame_of_bad_opening x hfirst _

/-- R171: a delimiter between the two. -/
theorem decodeFrame_of_inner_flag (x : Bool) {body : List Byte} (h : flagByte ∈ body) :
    decodeFrame x (flagByte :: (body ++ [flagByte])) = .error .framing := by
  simp [decodeFrame, h]

theorem parseInner_of_length_lt {u : List Byte} (h : u.length < 4) : parseInner u = .error .framing := by
  unfold parseInner
  split
  next addr cmd len rest =>
    have hrest : rest = [] := List.length_eq_zero_iff.mp (by simp only [List.length_cons] at h; omega)
    rw [if_pos hrest]
  next => rfl

/-- Stages 4 and 5, on inner bytes taken apart field by field (42_frame_codec.md R174, R175). -/
theorem parseInner_fields (addr cmd len : Byte) (payload : List Byte) (chk : Byte) :
    parseInner (addr :: cmd :: len :: (payload ++ [chk])) =
      if cks (addr :: cmd :: len :: payload) ≠ chk then .error .checksum
      else if len.toNat ≠ payload.length then .error .length
      else .ok ⟨addr, cmd, payload, true⟩ := by
  have hvfy : cksumVfy (addr :: cmd :: len :: (payload ++ [chk])) = decide (cks (addr :: cmd :: len :: payload) = chk) :=
    cksumVfy_concat (addr :: cmd :: len :: payload) chk
  simp [parseInner, hvfy]

theorem exists_fields_of_four_le {u : List Byte} (h : 4 ≤ u.length) :
    ∃ addr cmd len payload chk, u = addr :: cmd :: len :: (payload ++ [chk]) := by
  match u, h with
  | addr :: cmd :: len :: b :: rest, _ =>
    obtain hnil | ⟨payload, chk, hrest⟩ := List.eq_nil_or_concat' (b :: rest)
    · cases hnil
    · exact ⟨addr, cmd, len, payload, chk, by rw [hrest]⟩

/-- Stages 3, 4 and 5 by the places of the inner bytes (R173 to R175). -/
theorem parseInner_eq (u : List Byte) :
    parseInner u =
      if u.length < 4 then .error .framing
      else if cks u.dropLast ≠ u.getLastD 0 then .error .checksum
      else if (u.getD 2 0).toNat ≠ u.length - 4 then .error .length
      else .ok { addr := u.getD 0 0, cmd := u.getD 1 0, payload := (u.drop 3).dropLast, isResponse := true } := by
  by_cases hshort : u.length < 4
  · rw [if_pos hshort, parseInner_of_length_lt hshort]
  · rw [if_neg hshort]
    obtain ⟨addr, cmd, len, payload, chk, rfl⟩ := exists_fields_of_four_le (Nat.le_of_not_lt hshort)
    have hsummed : (addr :: cmd :: len :: (payload ++ [chk])).dropLast = addr :: cmd :: len :: payload :=
      List.dropLast_concat (l₁ := addr :: cmd :: len :: payload)
    have hchk : (addr :: cmd :: len :: (payload ++ [chk])).getLastD 0 = chk :=
      List.getLastD_concat (l := addr :: cmd :: len :: payload)
    rw [parseInner_fields, hsummed, hchk]
    simp

/-- Settles O28: stage 1 by the four ways to have no delimited body, stages 2 to 5 on the body. -/
theorem decodeFunction : Obligations.DecodeFunction := by
  intro x
  refine ⟨fun raw h => ?framing, fun body hn => ?stages⟩
  case framing =>
    by_cases hdelim : ∃ body, raw = flagByte :: (body ++ [flagByte])
    · obtain ⟨body, rfl⟩ := hdelim
      obtain hshort | hhead | hlast | hinner := h
      · simp at hshort
      · exact absurd rfl hhead
      · exact absurd (getLast?_concat_flag (flagByte :: body)) hlast
      · rw [List.tail_cons, List.dropLast_concat] at hinner
        exact decodeFrame_of_inner_flag x hinner
    · exact decodeFrame_of_not_delimited x (not_exists.mp hdelim)
  case stages =>
    refine (decodeFrame_delimited x hn).trans ?_
    cases unstuff x body with
    | error e => rfl
    | ok u => exact parseInner_eq u

end Sys2Proof.Machine

/-! ## Settling O27 and O30: ENCODE and DECODE -/

namespace Sys2Proof.Machine

open Config

theorem exec_encode (s : State) : exec .encode s = execEncode s := rfl

theorem exec_decode (s : State) : exec .decode s = execDecode s := rfl

theorem execEncode_of_too_large {s : State} (hb : s.busy = false) (h : 255 < s.reqPlen.toNat) :
    execEncode s = .next (s.startOp.finish .payloadTooLarge) := by
  simp [execEncode, hb, State.plenTooLarge_of_lt h]

/-- DECODE on an idle block where WIRE holds no frame (42_frame_codec.md R177). -/
theorem execDecode_of_error {s : State} {raw : List Byte} {e : DecodeErr} (hb : s.busy = false)
    (hr : s.rawWire = some raw) (hd : decodeFrame s.escLegacy raw = .error e) :
    execDecode s = .next (s.startOp.clearScan.fail e.code) := by
  simp [execDecode, hb, hr, hd]

/-- An atomic operation leaves BUSY as it found it, 0 (20_memory.md R78). -/
theorem State.finish_of_idle {s : State} (hb : s.busy = false) (t : State) (c : Code) :
    t.finish c = { t with result := c, phase := .idle, busy := s.busy } := by
  rw [hb]
  rfl

/-- Settles O27. -/
theorem encodeOperation : Obligations.EncodeOperation := by
  refine ⟨fun s payload w hb hl hplen hread hw => ?written, fun s hb h => ?tooLarge⟩
  case written =>
    obtain ⟨hlen, rfl⟩ := encodeFrame_eq_ok.mp hw
    have hexec := execEncode_of_written hb hl (State.reqPayload_eq_some.mpr ⟨hplen, hread⟩)
    have hfits := length_wireOf_le s.escLegacy s.reqAddr s.reqCmd (cksumGen s.reqAddr s.reqCmd payload) hlen
    rw [State.finish_of_idle hb] at hexec
    refine ⟨_, hexec, Memory.read_ofList _, ?_, rfl⟩
    exact (BitVec.toNat_ofNat _ 16).trans (Nat.mod_eq_of_lt (hfits.trans_lt (by decide)))
  case tooLarge =>
    rw [exec_encode, execEncode_of_too_large hb h, State.finish_of_idle hb]
    rfl

/-- Settles O30. -/
theorem decodeOperation : Obligations.DecodeOperation := by
  intro s raw hb hlen hread
  have hraw := State.rawWire_eq_some.mpr ⟨hlen, hread⟩
  refine ⟨fun f hd => ?stored, fun e hd => ?failed⟩
  case stored =>
    have hexec := execDecode_of_ok hb hraw hd
    rw [State.finish_of_idle hb] at hexec
    exact ⟨_, hexec, rfl, rfl, ofNat_length_toNat (decodeFrame_payload_le hd), Memory.read_ofList f.payload, rfl⟩
  case failed =>
    have hexec := execDecode_of_error hb hraw hd
    rw [State.fail, State.finish_of_idle hb] at hexec
    exact ⟨_, hexec, by cases e <;> rfl⟩

end Sys2Proof.Machine

/-! ## Settling O34 and O35: XFER up to the end of its start step -/

namespace Sys2Proof.Machine

open Config

theorem execXfer_of_too_large {s : State} (hb : s.busy = false) (h : 255 < s.reqPlen.toNat) :
    execXfer s = .next (s.startXfer.fail .payloadTooLarge) := by
  simp [execXfer, hb, State.plenTooLarge_of_lt h]

/-- Settles O34. -/
theorem xferPayloadTooLarge : Obligations.XferPayloadTooLarge := by
  intro s hb h
  have hexec := execXfer_of_too_large hb h
  rw [State.fail, State.finish_of_idle hb] at hexec
  exact ⟨_, hexec, rfl⟩

/-- The receive phase of an XFER that has sent `w`, with the failed candidate absorbed so far and the bytes that are
left in RXBUF (43_transport_session.md R192, R195, R196, R212). -/
def State.sent (s : State) (w : List Byte) (failure : Option DecodeErr) (left : List Byte) : State :=
  { s with
    busy := true, phase := .rx, resynced := failure.isSome, firstErr := failure, txout := s.txout ++ w,
    timer := s.timeout, rxbuf := left }

theorem State.transmit_startXfer (s : State) (w : List Byte) :
    s.startXfer.transmit w = s.sent w none s.rxbuf := rfl

/-- An idle block whose payload is written sends its request and settles with what is in RXBUF (R226). -/
theorem exec_xfer_settles {s : State} {payload w : List Byte} (hb : s.busy = false) (hl : s.reqPlen.toNat ≤ 255)
    (hplen : payload.length = s.reqPlen.toNat) (hread : ∀ i, i < payload.length → s.txpay.read i = payload[i]?)
    (hw : encodeFrame s.escLegacy s.reqAddr s.reqCmd payload = .ok w) :
    ∃ sc, exec .xfer s = .next { (s.sent w none s.rxbuf).settle with scan := sc } := by
  obtain ⟨-, rfl⟩ := encodeFrame_eq_ok.mp hw
  have hexec := execXfer_of_written hb hl (State.reqPayload_eq_some.mpr ⟨hplen, hread⟩)
  rw [State.retireScan_eq, State.transmit_startXfer] at hexec
  exact ⟨_, hexec⟩

theorem State.Settled.rxbuf_suffix {s t : State} (h : s.Settled t) : t.rxbuf <:+ s.rxbuf := by
  cases h with
  | waits hu hq ht => exact hu.suffix
  | answers f hu hf => rw [State.correlate_eq_finish]; exact hu.suffix
  | fails c hu hc => exact hu.suffix

/-- The fields that settling can write (43_transport_session.md R200, R210 to R213, R219). -/
theorem State.Settled.frame {s t : State} (h : s.Settled t) :
    t = { s with
      busy := t.busy, phase := t.phase, resynced := t.resynced, rspValid := t.rspValid, result := t.result,
      firstErr := t.firstErr, rspAddr := t.rspAddr, rspCmd := t.rspCmd, rspLen := t.rspLen,
      rspIsResponse := t.rspIsResponse, rxpay := t.rxpay, rxbuf := t.rxbuf, txout := t.txout, timer := t.timer,
      freeCount := t.freeCount } := by
  cases h with
  | waits hu hq ht => cases hu <;> rfl
  | answers f hu hf => rw [State.correlate_eq_finish]; cases hu <;> rfl
  | fails c hu hc => cases hu <;> rfl

/-- Settles O35. -/
theorem xferSendsOneFrame : Obligations.XferSendsOneFrame := by
  intro s payload w hb hl hplen hread hw
  obtain ⟨sc, hexec⟩ := exec_xfer_settles hb hl hplen hread hw
  have hsame := (s.sent w none s.rxbuf).settle_sameOperands
  have hset := (s.sent w none s.rxbuf).settle_settled
  refine ⟨_, hexec, hsame.txout, hsame.timer, hset.rxbuf_suffix, ?_, ?_⟩
  · exact (hset.ends_or_waits rfl rfl).imp_right fun ⟨hwait, _⟩ => hwait
  · exact congrArg (fun u : State => { u with scan := sc }) hset.frame

end Sys2Proof.Machine

/-! ## Settling O36 and O37: XFER and the bytes that RXBUF already holds -/

namespace Sys2Proof.Machine

open Config

section
variable (s : State) (w : List Byte) (failure : Option DecodeErr)

theorem State.settle_sent_hunt {junk : List Byte} (hn : flagByte ∉ junk) (rest : List Byte) :
    (s.sent w failure (junk ++ rest)).settle = (s.sent w failure rest).settle :=
  State.settle_hunt (s := s.sent w failure (junk ++ rest)) rfl hn

theorem State.settle_sent_flags (n : Nat) (rest : List Byte) :
    (s.sent w failure (List.replicate (n + 1) flagByte ++ rest)).settle =
      (s.sent w failure (flagByte :: rest)).settle :=
  State.settle_flags (s := s.sent w failure (List.replicate (n + 1) flagByte ++ rest)) rfl

/-- The first candidate that fails is absorbed (43_transport_session.md R212). -/
theorem State.settle_sent_absorbs {body : List Byte} {e : DecodeErr} (hne : body ≠ []) (hn : flagByte ∉ body)
    (hd : decodeFrame s.escLegacy (flagByte :: (body ++ [flagByte])) = .error e) (after : List Byte) :
    (s.sent w none (flagByte :: (body ++ flagByte :: after))).settle =
      (s.sent w (some e) (flagByte :: after)).settle :=
  State.settle_absorbs (s := s.sent w none (flagByte :: (body ++ flagByte :: after))) rfl hne hn hd rfl

/-- A buffered frame is the response, whatever was absorbed before it (R210, R220). -/
theorem State.settle_sent_frame {addr cmd : Byte} {q good : List Byte}
    (hgood : encodeFrame s.escLegacy addr cmd q = .ok good) (after : List Byte) (sc : Scan) :
    (s.sent w failure after).Answered { (s.sent w failure (good ++ after)).settle with scan := sc }
      ⟨addr, cmd, q, true⟩ after := by
  obtain ⟨hlen, rfl⟩ := encodeFrame_eq_ok.mp hgood
  have hd := (decodeFrame_wireOf s.escLegacy (addr := addr) (cmd := cmd) hlen).trans (if_pos rfl)
  have hset := State.settle_accepts
    (s := s.sent w failure (wireOf s.escLegacy addr cmd q (cksumGen addr cmd q) ++ after)) (after := after)
    (by rw [State.sent, wireOf, List.cons_append, List.append_assoc]; rfl)
    (stuff_ne_nil s.escLegacy (List.cons_ne_nil _ _)) (flagByte_not_mem_stuff s.escLegacy _) hd
  rw [hset, State.correlate_eq_finish_code]
  exact (s.sent w failure after).answered_of_stored (f := ⟨addr, cmd, q, true⟩) hlen after sc

end

/-- Settles O36: RXBUF is settled down to its last run of delimiters, and then the framer waits or times out. -/
theorem xferWithNothingBuffered : Obligations.XferWithNothingBuffered := by
  intro s payload w junk body hb hl hplen hread hw hjunk hbody settles
  obtain ⟨sc, hexec⟩ := exec_xfer_settles hb hl hplen hread hw
  have of_settled {failure : Option DecodeErr} {left : List Byte} (hq : rxSettled left = true)
      (hset : (s.sent w none s.rxbuf).settle = (s.sent w failure left).settle) : settles failure left := by
    rw [hset] at hexec
    refine ⟨fun ht => ⟨_, hexec, ?_⟩, fun ht => ⟨_, hexec, ?_⟩⟩
    · rw [State.settle_quiescent (s := s.sent w failure left) hq ht]
      rfl
    · rw [State.settle_timeout (s := s.sent w failure left) hq ht, State.sent, ht]
      exact State.failedWith_of_failed _ .timeout left sc
  have hopen : rxSettled (flagByte :: body) = true := rxSettled_iff.mpr (.inr ⟨body, rfl, hbody⟩)
  refine ⟨fun n hB => ?none, fun n m damaged e hne hn hd hB => ?one⟩
  case none =>
    cases n with
    | zero =>
      refine of_settled rfl ?_
      rw [hB, List.replicate_zero, List.append_nil, ← List.append_nil (junk ++ body)]
      exact s.settle_sent_hunt w none (List.not_mem_append hjunk hbody) []
    | succ n =>
      refine of_settled hopen ?_
      rw [hB, List.append_assoc, s.settle_sent_hunt w none hjunk]
      exact s.settle_sent_flags w none n body
  case one =>
    refine of_settled hopen ?_
    calc (s.sent w none s.rxbuf).settle
        = (s.sent w none (junk ++ (List.replicate (n + 1) flagByte ++
            (damaged ++ flagByte :: (List.replicate m flagByte ++ body))))).settle := by
          rw [hB, List.append_assoc, List.append_assoc, List.append_assoc]
          rfl
      _ = (s.sent w none (flagByte :: (damaged ++ flagByte :: (List.replicate m flagByte ++ body)))).settle := by
          rw [s.settle_sent_hunt w none hjunk, s.settle_sent_flags]
      _ = (s.sent w (some e) (List.replicate (m + 1) flagByte ++ body)).settle :=
          s.settle_sent_absorbs w hne hn hd _
      _ = (s.sent w (some e) (flagByte :: body)).settle := s.settle_sent_flags w (some e) m body

/-- Settles O37. -/
theorem xferTakesABufferedFrame : Obligations.XferTakesABufferedFrame := by
  intro s payload w junk reply after addr cmd q hb hl hplen hread hw hjunk hreply hB
  obtain ⟨sc, hexec⟩ := exec_xfer_settles hb hl hplen hread hw
  rw [hB, List.append_assoc, s.settle_sent_hunt w none hjunk] at hexec
  exact ⟨_, hexec, s.settle_sent_frame w none hreply after sc⟩

end Sys2Proof.Machine

/-! ## Settling O38: WIRE and WIRE_LEN make no difference to XFER -/

namespace Sys2Proof.Machine

open Config

/-- The block with other contents of WIRE and WIRE_LEN (10_state.md R36, R40). -/
def State.withWire (s : State) (m : Memory) (n : Word16) : State := { s with wire := m, wireLen := n }

section
variable (s : State) (m : Memory) (n : Word16)

theorem State.takeCandidate_withWire (body after : List Byte) :
    (s.withWire m n).takeCandidate body after = (s.takeCandidate body after).map (·.withWire m n) := by
  cases hd : decodeFrame s.escLegacy (flagByte :: (body ++ [flagByte])) with
  | ok f =>
    rw [State.takeCandidate_ok hd, State.takeCandidate_ok (s := s.withWire m n) hd, State.correlate_eq_finish_code,
      State.correlate_eq_finish_code]
    rfl
  | error e =>
    cases hr : s.resynced with
    | false => rw [State.takeCandidate_first hd hr, State.takeCandidate_first (s := s.withWire m n) hd hr]; rfl
    | true => rw [State.takeCandidate_second hd hr, State.takeCandidate_second (s := s.withWire m n) hd hr]; rfl

theorem State.stall_withWire : (s.withWire m n).stall = s.stall.map (·.withWire m n) :=
  (apply_ite (SyncStep.map (State.withWire · m n)) (s.timer = 0) (.done (s.fail .timeout)) (.waiting s)).symm

theorem State.syncStep_withWire : (s.withWire m n).syncStep = s.syncStep.map (·.withWire m n) := by
  rcases s.syncStep_cases with ⟨b, rest, hB, hb, hs⟩ | ⟨rest, hB, hs⟩ | ⟨body, after, hB, hne, hn, hs⟩ | ⟨hq, hs⟩
  · rw [hs, State.syncStep_hunt (s := s.withWire m n) hB hb]; rfl
  · rw [hs, State.syncStep_adjacent (s := s.withWire m n) hB]; rfl
  · rw [hs, State.syncStep_candidate (s := s.withWire m n) hB hne hn]
    exact s.takeCandidate_withWire m n body after
  · rw [hs, State.syncStep_settled (s := s.withWire m n) hq]
    exact s.stall_withWire m n

theorem State.settle_withWire : (s.withWire m n).settle = s.settle.withWire m n := by
  refine State.settle_induct (P := fun u => (s.withWire m n).settle = (u.withWire m n).settle)
    (Q := fun t => (s.withWire m n).settle = t.withWire m n) ?again ?done ?waiting rfl <;> intro u t hu he <;>
    have hstep := u.syncStep_withWire m n <;> rw [he] at hstep <;> rw [hu]
  case again => exact State.settle_again hstep
  case done => exact State.settle_done hstep
  case waiting => exact State.settle_waiting hstep

theorem State.openScan_retireScan_withWire :
    (s.withWire m n).openScan.retireScan = s.openScan.retireScan.withWire m n :=
  (apply_ite (State.withWire · m n) _ s.openScan s.openScan.clearScan).symm

theorem State.transmit_startXfer_withWire (w : List Byte) :
    (s.withWire m n).startXfer.transmit w = (s.startXfer.transmit w).withWire m n := rfl

end

/-- Settles O38: both ways XFER goes on (R193, R226). -/
theorem xferIgnoresWire : Obligations.XferIgnoresWire := by
  intro s t m n h
  obtain ⟨hb, ⟨hlarge, rfl⟩ | ⟨payload, hlen, hq, rfl⟩⟩ := execXfer_cases h
  · exact execXfer_of_too_large (s := s.withWire m n) hb hlarge
  · have hplen := (State.reqPayload_eq_some.mp hq).1
    have hexec := execXfer_of_written (s := s.withWire m n) hb (hplen ▸ hlen) hq
    rw [State.transmit_startXfer_withWire, State.settle_withWire, State.openScan_retireScan_withWire] at hexec
    exact hexec

end Sys2Proof.Machine

/-! ## Settling O40: ticks end every XFER -/

namespace Sys2Proof.Machine

open Config

/-- At most `n` steps away the block is in a state with PHASE = IDLE. -/
def State.IdleWithin (s : State) (n : Nat) : Prop :=
  ∃ k t, k ≤ n ∧ Host.Core.run core k s = .next t ∧ t.phase = .idle

theorem State.idleWithin_of_idle (s : State) (h : s.phase = .idle) (n : Nat) : s.IdleWithin n :=
  ⟨0, s, Nat.zero_le n, rfl, h⟩

theorem State.IdleWithin.of_step {s t : State} {n : Nat} (ht : t.IdleWithin n) (h : core.step s = .next t) :
    s.IdleWithin (n + 1) := by
  obtain ⟨k, u, hk, hrun, hu⟩ := ht
  exact ⟨k + 1, u, Nat.succ_le_succ hk, (run_succ_of_step (M := core) h k).trans hrun, hu⟩

/-- Bytes do not move the timer (43_transport_session.md R216). -/
theorem State.rxByte_timer (s : State) (b : Byte) : (s.rxByte b).timer = s.timer := by
  by_cases hp : s.phase = .rx
  · obtain ⟨sc, h⟩ := State.receive_of_rx b (lineEffect s.escLegacy b) hp
    rw [State.rxByte, h, State.retireScan_timer, (State.settle_sameOperands _).timer]
  · rw [State.rxByte_of_not_rx b hp]

theorem State.Inv.withInputs {s : State} (h : s.Inv) (l : List Input) : (s.withInputs l).Inv := { h with }

theorem State.Inv.idle_of_not_rx {s : State} (h : s.Inv) (hp : s.phase ≠ .rx) : s.phase = .idle := (h.atRest hp).1

/-- A list of ticks and single bytes with at least as many ticks as TIMER holds brings the block to rest. -/
theorem State.Inv.idleWithin {s : State} {events : List Input} (h : s.Inv)
    (he : ∀ e ∈ events, e = .tick ∨ ∃ b, e = .rxByte b) (ht : s.timer.toNat ≤ events.count .tick) :
    (s.withInputs events).IdleWithin events.length := by
  induction events generalizing s with
  | nil =>
    refine (s.withInputs []).idleWithin_of_idle (h.idle_of_not_rx fun hp => (h.quiescent hp).1 ?_) _
    exact BitVec.eq_of_toNat_eq (Nat.le_zero.mp ht)
  | cons e events ih =>
    obtain ⟨he, hrest⟩ := List.forall_mem_cons.mp he
    by_cases hp : s.phase = .rx
    case neg => exact (s.withInputs (e :: events)).idleWithin_of_idle (h.idle_of_not_rx hp) _
    obtain rfl | ⟨b, rfl⟩ := he
    · have hstep : core.step (s.withInputs (.tick :: events)) = .next (s.withInputs events).tick := rfl
      have h' := h.withInputs events
      refine State.IdleWithin.of_step ?_ hstep
      by_cases hexp : s.countDown.timer = 0
      · rw [h'.tick_expires hp hexp]
        exact State.idleWithin_of_idle _ rfl _
      · rw [h'.tick_counts hp hexp]
        rw [List.count_cons_self] at ht
        have htimer := s.countDown_timer_toNat
        exact ih (h.countDown hp hexp) hrest (by omega)
    · rw [List.count_cons_of_ne (by simp)] at ht
      exact (ih (h.rxByte b) hrest (by rwa [s.rxByte_timer])).of_step (step_rxByte s b events)

/-- Settles O40. -/
theorem everyXferEndsWhileTicksCome : Obligations.EveryXferEndsWhileTicksCome :=
  fun _ _ h _ he ht => h.idleWithin he ht

end Sys2Proof.Machine

/-! ## Settling O42, O47, O48 and O49: a byte that finds no candidate, and a delimiter -/

namespace Sys2Proof.Machine

open Config

/-- Settles O42. -/
theorem huntDiscardsBytes : Obligations.HuntDiscardsBytes := by
  rintro s i b hch hb hne ⟨hp, -, ht, -⟩ hB
  obtain ⟨effect, hexec⟩ := exec_eq_receive hch hb s
  obtain ⟨sc, harrive⟩ := State.receive_of_rx b effect hp
  have hset : ({ s with rxbuf := s.rxbuf ++ [b], scan := sc } : State).settle = { s with rxbuf := [], scan := sc } := by
    rw [hB]
    exact (State.settle_hunt (junk := [b]) (rest := []) rfl (fun h => hne (List.mem_singleton.mp h).symm)).trans
      (State.settle_quiescent rfl ht)
  rw [hexec, harrive, hset, State.retireScan_of_no_body rfl, ← hB]
  rfl

/-- FLAG is a received delimiter, whatever escape the scan of a state that no run reaches may have pending (log entry
20). -/
theorem exec_flag_eq_rxByte (s : State) :
    ∃ sc, exec .flag s = .next (({ s with scan := sc } : State).rxByte flagByte) := by
  by_cases hopen : s.rxbuf.head? = some flagByte
  · exact ⟨Scan.zero, by simp only [exec, execFlag, State.rxByte, State.receive, hopen, if_true]; rfl⟩
  · exact ⟨s.scan, by simp only [exec, execFlag, State.rxByte, State.receive, hopen, if_false]⟩

/-- Settles O47. -/
theorem flagOpensACandidate : Obligations.FlagOpensACandidate := by
  intro s hw hB
  obtain ⟨sc, hexec⟩ := exec_flag_eq_rxByte s
  exact hexec.trans (congrArg _ (State.Waiting.rxByte_flag_opens (s := { s with scan := sc }) hw hB))

/-- Settles O48. -/
theorem flagClosesAnAcceptedCandidate : Obligations.FlagClosesAnAcceptedCandidate := by
  intro s body f hw hB hne hd
  obtain ⟨sc, hexec⟩ := exec_flag_eq_rxByte s
  rw [State.Waiting.rxByte_flag_accepts (s := { s with scan := sc }) hw hB hne hd] at hexec
  exact ⟨_, hexec, s.answered_of_stored (decodeFrame_payload_le hd) [] Scan.zero⟩

/-- Settles O49. -/
theorem flagClosesAFailedCandidate : Obligations.FlagClosesAFailedCandidate := by
  intro s body e hw hB hne hd
  obtain ⟨sc, hexec⟩ := exec_flag_eq_rxByte s
  refine ⟨fun hr => ?first, fun hr => ?second⟩
  case first =>
    rw [State.Waiting.rxByte_flag_absorbs (s := { s with scan := sc }) hw hB hne hd hr] at hexec
    exact hexec
  case second =>
    rw [State.Waiting.rxByte_flag_surfaces (s := { s with scan := sc }) hw hB hne hd hr] at hexec
    exact ⟨_, hexec, s.failedWith_of_failed e.code [flagByte] Scan.zero⟩

end Sys2Proof.Machine

/-! ## Settling O52: damaged frames in front of a good one -/

namespace Sys2Proof.Machine

open Config

theorem State.rxBytes_of_not_rx_of_dead {s : State} (hp : s.phase ≠ .rx) (hs : s.scan = Scan.zero) (l : List Byte) :
    s.rxBytes l = { s with rxbuf := s.rxbuf ++ l } := by
  cases l with
  | nil => rw [List.append_nil]; rfl
  | cons b l => rw [State.rxBytes_of_not_rx l hp, ← hs]

/-- The framer with one failure behind it, its closing delimiter the opening one of the next candidate (R212). -/
def State.absorbed (s : State) (e : DecodeErr) : State :=
  { s with rxbuf := [flagByte], resynced := true, firstErr := some e, scan := Scan.zero }

theorem State.Waiting.absorbed {s : State} (hw : s.Waiting) (e : DecodeErr) : (s.absorbed e).Waiting :=
  State.Waiting.with_rxbuf (s := { s with resynced := true, firstErr := some e }) hw (l := [flagByte]) rfl Scan.zero

/-- Body bytes behind an opening delimiter are an unfinished candidate (R208). -/
theorem State.Waiting.rxBytes_body_behind {s : State} {body : List Byte} (hw : s.Waiting) (hB : s.rxbuf = [flagByte])
    (hn : flagByte ∉ body) : ∃ sc, (s.behindFlag body sc).Waiting ∧ s.rxBytes body = s.behindFlag body sc := by
  obtain ⟨sc, hbody⟩ := State.rxBytes_body hw hB hn
  exact ⟨sc, hw.with_rxbuf (rxSettled_iff.mpr (.inr ⟨body, rfl, hn⟩)) sc, hbody⟩

theorem encodeFrame_eq_flag_cons {x : Bool} {addr cmd : Byte} {q good : List Byte}
    (h : encodeFrame x addr cmd q = .ok good) : good = flagByte :: good.tail := by
  obtain ⟨-, rfl⟩ := encodeFrame_eq_ok.mp h
  rfl

theorem State.Waiting.rxBytes_good_tail {s : State} {addr cmd : Byte} {q good : List Byte} (hw : s.Waiting)
    (hB : s.rxbuf = [flagByte]) (h : encodeFrame s.escLegacy addr cmd q = .ok good) :
    s.Answered (s.rxBytes good.tail) ⟨addr, cmd, q, true⟩ [] := by
  obtain ⟨hlen, rfl⟩ := encodeFrame_eq_ok.mp h
  exact hw.rxBytes_frame_tail_right hlen hB rfl

section
variable {s : State} {body : List Byte} {e : DecodeErr} (hw : s.Waiting) (hne : body ≠ []) (hn : flagByte ∉ body)
  (hd : decodeFrame s.escLegacy (flagByte :: (body ++ [flagByte])) = .error e)
include hw hne hn hd

/-- A damaged frame is absorbed at the delimiter behind its body, its own or the opening one of what follows (R206,
R212). -/
theorem State.Waiting.rxBytes_damaged_first (hB : s.rxbuf = []) (hr : s.resynced = false) {close : List Byte}
    (hclose : close = [] ∨ close = [flagByte]) (rest : List Byte) :
    s.rxBytes (flagByte :: (body ++ close) ++ flagByte :: rest) = (s.absorbed e).rxBytes rest := by
  have hw' := hw.with_rxbuf (l := [flagByte]) rfl Scan.zero
  obtain ⟨sc, hw'', hbody⟩ := hw'.rxBytes_body_behind rfl hn
  have habsorb : s.rxBytes (flagByte :: (body ++ [flagByte])) = s.absorbed e := by
    rw [State.rxBytes_cons, hw.rxByte_flag_opens (.inl hB), State.rxBytes_append, hbody]
    exact hw''.rxByte_flag_absorbs rfl hne hd hr
  obtain rfl | rfl := hclose
  · rw [List.append_nil, List.append_cons, List.cons_append, State.rxBytes_append, habsorb]
  · rw [State.rxBytes_append, habsorb, State.rxBytes_cons, (hw.absorbed e).rxByte_flag_opens (.inr rfl)]
    rfl

/-- The second damaged frame is the outcome at the delimiter behind its body, and that delimiter and what follows stay
(R213; 20_memory.md R72). -/
theorem State.Waiting.rxBytes_damaged_second (hB : s.rxbuf = [flagByte]) (hr : s.resynced = true) (rest : List Byte) :
    s.FailedWith (s.rxBytes (body ++ flagByte :: rest)) e.code (flagByte :: rest) := by
  obtain ⟨sc, hw', hbody⟩ := hw.rxBytes_body_behind hB hn
  rw [State.rxBytes_append, hbody, State.rxBytes_cons, hw'.rxByte_flag_surfaces rfl hne hd hr,
    State.rxBytes_of_not_rx_of_dead (by simp) rfl]
  exact s.failedWith_of_failed e.code (flagByte :: rest) Scan.zero

end

theorem State.Answered.result_eq {s t : State} {f : Frame} {left : List Byte} (h : s.Answered t f left) :
    t.result = s.correlationCode f := by
  obtain ⟨-, -, -, -, ht⟩ := h
  exact congrArg State.result ht

/-- A frame that answers the request (R211). -/
theorem State.correlationCode_self (s : State) (q : List Byte) (x : Bool) :
    s.correlationCode ⟨s.reqAddr, s.reqCmd, q, x⟩ = .ok := by
  simp [State.correlationCode]

/-- Settles O52: the first damaged frame is absorbed, and then a good one is the answer, or a second damaged one the
outcome. -/
theorem oneDamagedFrameIsSurvivedTwoAreNot : Obligations.OneDamagedFrameIsSurvivedTwoAreNot := by
  intro s body close q good e hw hB hr hne hn hd hclose hgood
  have hw' := hw.absorbed e
  have hopen := encodeFrame_eq_flag_cons hgood
  refine ⟨?one, fun body' close' e' hne' hn' hd' hclose' => ?two⟩
  case one =>
    have hans := hw'.rxBytes_good_tail rfl hgood
    rw [← hw.rxBytes_damaged_first hne hn hd hB hr hclose, ← hopen] at hans
    exact ⟨hans, hans.result_eq.trans (s.correlationCode_self q true)⟩
  case two =>
    obtain ⟨rest, hrest⟩ : ∃ rest, close' ++ good = flagByte :: rest := by
      obtain rfl | rfl := hclose'
      · exact ⟨_, hopen⟩
      · exact ⟨_, rfl⟩
    have hfail := hw'.rxBytes_damaged_second hne' hn' hd' rfl rfl rest
    rw [← hw.rxBytes_damaged_first hne hn hd hB hr hclose, ← hrest] at hfail
    rw [List.append_assoc, List.cons_append (as := body' ++ close'), List.append_assoc body']
    exact hfail

end Sys2Proof.Machine

/-! ## Settling O56 and O59: how the receive phase is entered, and with what it ends -/

namespace Sys2Proof.Machine

open Config

/-- RSP_VALID is 1 exactly with a code that only a decoded frame gives (60_exceptions.md R252). -/
def State.ResponseAgrees (s : State) : Prop :=
  s.rspValid = true ↔ s.result = .ok ∨ s.result = .addressMismatch ∨ s.result = .commandMismatch

/-- The receive phase goes on, or it has ended: not with PayloadTooLarge, which is found before it, and with RSP_VALID
as the code says (43_transport_session.md R191, R211, R213, R219; 60_exceptions.md R252). -/
def State.RxOrConcluded (s : State) : Prop :=
  s.phase = .rx ∨ (s.result ≠ .payloadTooLarge ∧ s.ResponseAgrees)

theorem State.RxOrConcluded.concluded {s : State} (h : s.RxOrConcluded) (hp : s.phase = .idle) :
    s.result ≠ .payloadTooLarge ∧ s.ResponseAgrees := by
  obtain hrx | hc := h
  · rw [hp] at hrx; cases hrx
  · exact hc

theorem State.correlationCode_cases (s : State) (f : Frame) :
    s.correlationCode f = .ok ∨ s.correlationCode f = .addressMismatch ∨ s.correlationCode f = .commandMismatch := by
  unfold State.correlationCode
  split_ifs <;> simp

theorem State.correlationCode_ne_payloadTooLarge (s : State) (f : Frame) : s.correlationCode f ≠ .payloadTooLarge := by
  unfold State.correlationCode
  split_ifs <;> nofun

theorem State.answer_responseAgrees (s : State) (f : Frame) :
    ((s.storeFrame f).finish (s.correlationCode f)).ResponseAgrees :=
  iff_of_true rfl (s.correlationCode_cases f)

/-- A failure leaves no response (R252). -/
theorem State.fail_responseAgrees (s : State) {c : Code}
    (hc : ¬ (c = .ok ∨ c = .addressMismatch ∨ c = .commandMismatch)) : (s.fail c).ResponseAgrees :=
  iff_of_false Bool.false_ne_true hc

theorem State.Settled.rxOrConcluded {s t : State} (h : s.Settled t) (hp : s.phase = .rx) : t.RxOrConcluded := by
  cases h with
  | waits hu hq ht => exact .inl (hu.frame.1.trans hp)
  | @answers u f hu hf =>
    rw [State.correlate_eq_finish_code]
    exact .inr ⟨u.correlationCode_ne_payloadTooLarge f, u.answer_responseAgrees f⟩
  | @fails u c hu hc =>
    obtain rfl | ⟨e, rfl⟩ := hc
    · exact .inr ⟨by simp, u.fail_responseAgrees (by simp)⟩
    · exact .inr ⟨by cases e <;> simp [DecodeErr.code], u.fail_responseAgrees (by cases e <;> simp [DecodeErr.code])⟩

theorem State.RxOrConcluded.retireScan {s : State} (h : s.RxOrConcluded) : s.retireScan.RxOrConcluded := by
  rw [State.retireScan_eq]
  exact h

theorem State.RxOrConcluded.rxByte {s : State} (h : s.RxOrConcluded) (b : Byte) : (s.rxByte b).RxOrConcluded := by
  by_cases hp : s.phase = .rx
  · obtain ⟨sc, harrive⟩ := State.receive_of_rx b (lineEffect s.escLegacy b) hp
    have hset := State.settle_settled { s with rxbuf := s.rxbuf ++ [b], scan := sc }
    rw [State.rxByte, harrive]
    exact (hset.rxOrConcluded hp).retireScan
  · rw [State.rxByte_of_not_rx b hp]
    exact h

theorem State.RxOrConcluded.rxBytes {s : State} (h : s.RxOrConcluded) (bytes : List Byte) :
    (s.rxBytes bytes).RxOrConcluded := by
  induction bytes generalizing s with
  | nil => exact h
  | cons b bytes ih => exact ih (h.rxByte b)

theorem State.RxOrConcluded.tick {s : State} (hp : s.phase = .rx) : s.tick.RxOrConcluded := by
  rw [State.tick, if_pos hp]
  exact (s.countDown.settle_settled.rxOrConcluded hp).retireScan

theorem State.HostWritten.phase {s t : State} (h : s.HostWritten t) : t.phase = s.phase := by
  cases h <;> rfl

/-- Reset alone ends the receive phase without an outcome (43_transport_session.md R191; 70_reset_and_hazards.md
R280). -/
theorem State.Handled.rxOrConcluded {s t : State} {e : Input} (h : s.Handled e t) (hp : s.phase = .rx)
    (hb : s.busy = true) : e = .reset ∨ t.RxOrConcluded := by
  have idle_only {P : Prop} (hidle : s.busy = false) : P := by rw [hb] at hidle; cases hidle
  cases h with
  | hostRead v => exact .inr (.inl hp)
  | ignored => exact .inr (.inl hp)
  | hostWrite hidle hw => exact idle_only hidle
  | encode ht => exact idle_only (execEncode_cases ht).1
  | decode ht => exact idle_only (execDecode_cases ht).1
  | xfer hop ht => exact idle_only (execXfer_cases ht).1
  | received bytes => exact .inr (State.RxOrConcluded.rxBytes (.inl hp) bytes)
  | tick => exact .inr (.tick hp)
  | reset => exact .inl rfl

theorem State.rxBytes_phase_of_not_rx {s : State} (hp : s.phase ≠ .rx) (bytes : List Byte) :
    (s.rxBytes bytes).phase = s.phase := by
  cases bytes with
  | nil => rfl
  | cons b bytes => rw [State.rxBytes_of_not_rx bytes hp]

theorem execEncode_phase {s t : State} (h : execEncode s = .next t) : t.phase = .idle := by
  obtain ⟨-, ⟨-, rfl⟩ | ⟨payload, -, -, rfl⟩⟩ := execEncode_cases h <;> rfl

theorem execDecode_phase {s t : State} (h : execDecode s = .next t) : t.phase = .idle := by
  obtain ⟨-, raw, -, ⟨f, -, rfl⟩ | ⟨e, -, rfl⟩⟩ := execDecode_cases h <;> rfl

/-- The start of an XFER alone enters the receive phase (43_transport_session.md R191). -/
theorem State.Handled.enters_rx {s t : State} {e : Input} (h : s.Handled e t) (hp : s.phase ≠ .rx)
    (ht : t.phase = .rx) : ∃ v, e = .writeReg 0x00 v ∧ (v.setWidth 8 : Byte) = 0x03 := by
  have unmoved {P : Prop} (hsame : t.phase = s.phase) : P := absurd (hsame.symm.trans ht) hp
  have at_rest {P : Prop} (hidle : t.phase = .idle) : P := by rw [ht] at hidle; cases hidle
  cases h with
  | hostRead v => exact unmoved rfl
  | ignored => exact unmoved rfl
  | hostWrite hidle hw => exact unmoved hw.phase
  | encode h => exact at_rest (execEncode_phase h)
  | decode h => exact at_rest (execDecode_phase h)
  | @xfer v _ hop h => exact ⟨v, rfl, hop⟩
  | received bytes => exact unmoved (State.rxBytes_phase_of_not_rx hp bytes)
  | tick => exact unmoved (congrArg State.phase (State.tick_of_not_rx hp))
  | reset => exact at_rest rfl

/-- A step of the receive phase goes on with it, ends it with an outcome, or is a reset. -/
theorem State.Inv.step_rxOrConcluded {s t : State} (h : s.Inv) (ht : step s = .next t) (hp : s.phase = .rx) :
    (∃ rest, s.inputs = .reset :: rest) ∨ t.RxOrConcluded := by
  obtain ⟨-, rfl⟩ | ⟨e, rest, hin, he⟩ := step_cases ht
  · exact .inr (.inl hp)
  · obtain rfl | hc := he.rxOrConcluded hp (h.busy_iff.mpr hp)
    · exact .inl ⟨rest, hin⟩
    · exact .inr hc

/-- Settles O56. -/
theorem phaseMovesOnlyAsStated : Obligations.PhaseMovesOnlyAsStated := by
  intro s t h ht
  have hinv := everyStepKeepsTheInvariant s t h ht
  refine ⟨hinv.not_tx, fun hp hp' => ?enter, fun hp hp' => ?leave⟩
  case enter =>
    have hnot : s.phase ≠ .rx := by simp [hp]
    obtain ⟨-, rfl⟩ | ⟨e, rest, hin, he⟩ := step_cases ht
    · exact absurd hp' hnot
    · obtain ⟨v, rfl, hop⟩ := he.enters_rx hnot hp'
      exact ⟨v, rest, hin, hop⟩
  case leave =>
    obtain ⟨-, hbusy, -⟩ := hinv.atRest (by simp [hp'])
    exact (h.step_rxOrConcluded ht hp).imp_right fun hc => ⟨hbusy, (hc.concluded hp').1⟩

/-- An XFER that ends in the step that starts it (R193, R200). -/
theorem execXfer_responseAgrees {s t : State} (h : execXfer s = .next t) (hp : t.phase = .idle) : t.ResponseAgrees := by
  obtain ⟨-, ⟨-, rfl⟩ | ⟨payload, -, -, rfl⟩⟩ := execXfer_cases h
  · exact s.startXfer.fail_responseAgrees (by simp)
  · have hset := State.settle_settled (s.startXfer.transmit
      (wireOf s.escLegacy s.reqAddr s.reqCmd payload (cksumGen s.reqAddr s.reqCmd payload)))
    have hopen : (State.openScan _).RxOrConcluded := hset.rxOrConcluded rfl
    exact (hopen.retireScan.concluded hp).2

theorem step_writeCtrl_xfer {s : State} {v : Word32} {rest : List Input} (hin : s.inputs = .writeReg 0x00 v :: rest)
    (hop : (v.setWidth 8 : Byte) = 0x03) : step s = execXfer { s with inputs := rest } := by
  rw [step_of_inputs_cons hin, handle_writeCtrl (i := .xfer) (by rw [hop]; rfl)]
  rfl

/-- A damaged frame at the front of RXBUF is absorbed at the delimiter behind its body, its own or the opening one of
what follows (R206, R207, R212). -/
theorem State.settle_sent_damaged (s : State) (w : List Byte) {body close : List Byte} {e : DecodeErr} (hne : body ≠ [])
    (hn : flagByte ∉ body) (hd : decodeFrame s.escLegacy (flagByte :: (body ++ [flagByte])) = .error e)
    (hclose : close = [] ∨ close = [flagByte]) (rest : List Byte) :
    (s.sent w none (flagByte :: (body ++ close) ++ flagByte :: rest)).settle =
      (s.sent w (some e) (flagByte :: rest)).settle := by
  obtain rfl | rfl := hclose
  · rw [List.append_nil]
    exact s.settle_sent_absorbs w hne hn hd rest
  · rw [List.cons_append, List.append_assoc]
    exact (s.settle_sent_absorbs w hne hn hd (flagByte :: rest)).trans (s.settle_sent_flags w (some e) 1 rest)

/-- The second damaged frame is the outcome, its closing delimiter kept (R213). -/
theorem State.settle_sent_surfaces (s : State) (w : List Byte) {body : List Byte} {e e' : DecodeErr} (hne : body ≠ [])
    (hn : flagByte ∉ body) (hd : decodeFrame s.escLegacy (flagByte :: (body ++ [flagByte])) = .error e')
    (after : List Byte) (sc : Scan) :
    (s.sent w (some e) after).FailedWith
      { (s.sent w (some e) (flagByte :: (body ++ flagByte :: after))).settle with scan := sc } e'.code
      (flagByte :: after) := by
  rw [State.settle_surfaces (s := s.sent w (some e) (flagByte :: (body ++ flagByte :: after))) rfl hne hn hd rfl]
  exact State.failedWith_of_failed _ e'.code (flagByte :: after) sc

/-- Settles O59: the ways into the end of an XFER, and the two buffered endings. -/
theorem responseIsValidExactlyAfterADecodedFrame : Obligations.ResponseIsValidExactlyAfterADecodedFrame := by
  refine ⟨fun s t h ht hp hends => ?ends,
    fun s payload w body close e hb hl hplen hread hw hne hn hd hclose => ?buffered⟩
  case ends =>
    obtain hrx | ⟨v, rest, hin, hop⟩ := hends
    · exact (h.step_rxOrConcluded ht hrx).imp_right fun hc => (hc.concluded hp).2
    · exact .inr (execXfer_responseAgrees ((step_writeCtrl_xfer hin hop).symm.trans ht) hp)
  case buffered =>
    obtain ⟨sc, hexec⟩ := exec_xfer_settles hb hl hplen hread hw
    refine ⟨fun addr cmd q good after hgood hB => ⟨_, hexec, ?one⟩,
      fun body' after e' hne' hn' hd' hB => ⟨_, hexec, ?two⟩⟩
    case one =>
      have hans := s.settle_sent_frame w (some e) hgood after sc
      rw [encodeFrame_eq_flag_cons hgood, List.cons_append, ← s.settle_sent_damaged w hne hn hd hclose] at hans
      rw [hB, encodeFrame_eq_flag_cons hgood, List.append_assoc]
      exact hans
    case two =>
      have hfail := s.settle_sent_surfaces w (e := e) hne' hn' hd' after sc
      rw [← s.settle_sent_damaged w hne hn hd hclose] at hfail
      rw [hB]
      exact hfail

end Sys2Proof.Machine

/-! ## Settling O6: reset -/

namespace Sys2Proof.Machine

/-- Reset is never refused: it is applied in every state (70_reset_and_hazards.md R280). -/
theorem handle_reset (s : State) : handle .reset s = .next s.applyReset := rfl

/-- Of the state that it abandons, reset reads the inputs alone (70_reset_and_hazards.md R281; log entry 1). -/
theorem State.applyReset_with_inputs (s : State) (rest : List Input) :
    ({ s with inputs := rest } : State).applyReset = { State.reset with inputs := rest } := rfl

/-- Settles O6: the step takes the reset off the inputs and applies it, whatever operation is in progress. -/
theorem resetAbandonsAnyOperation : Obligations.ResetAbandonsAnyOperation := by
  intro s rest hin
  calc step s = handle .reset { s with inputs := rest } := step_of_inputs_cons hin
    _ = .next ({ s with inputs := rest } : State).applyReset := handle_reset _
    _ = .next { State.reset with inputs := rest } := by rw [State.applyReset_with_inputs]

end Sys2Proof.Machine
